-- ==== Sys2Proof/Word.lean ====
section
/-! DEFINITION. The bit vectors of the block: the 18-bit command word, the 16-bit raw, sixteenths and limit words, the
8-bit whole-degree operand. Bit i has weight 2^i, bit 0 is the least significant (00_scope.md R8). -/

namespace Sys2Proof

/-- The command word on `cmd_i`, `CMD_W` = 18 bits (30_encoding.md R41). -/
abbrev CmdWord := BitVec 18

/-- A 16-bit word: RAW16 (R35), SIXT16 (R36) or LIMIT16 (R38). -/
abbrev Half := BitVec 16

/-- An 8-bit word: TEMPC8 (R37), the reserved field of format T (R41), a byte on the bus (R24). -/
abbrev Byte := BitVec 8

end Sys2Proof
end

