-- ==== Sys2Proof/Syntax.lean ====
section
/-! DEFINITION. The commands of the block, one constructor per row of spec/opcode_table.json. -/

namespace Sys2Proof

/-- A command: an operation and its operand (30_encoding.md R41, R42; opcode_table.json). The two reserved rows are
commands as well: each is answered, by a fault response (R43, R44). -/
inductive Instr where
  /-- `DEC16 raw`: decode a raw register word to sixteenths of a degree (40_decode.md R50). -/
  | dec16 (raw : Half)
  /-- `DECC raw`: decode a raw register word to degrees Celsius in floating point (40_decode.md R51). -/
  | decc (raw : Half)
  /-- `ENCLIM tempc`: encode a whole-degree limit into the limit-register word (41_encode.md R57). -/
  | enclim (tempc : Byte)
  /-- `SETLIM tempc`: the pseudo-operation that expands to `ENCLIM tempc` (30_encoding.md R48, 41_encode.md R58). -/
  | setlim (tempc : Byte)
  /-- `RESERVED.OP`: `op = 0b11`, `x` is bits 15:0, any value (30_encoding.md R44(a)). -/
  | reservedOp (x : Half)
  /-- `RESERVED.FIELD`: format T with `rsv` (bits 15:8) not zero, `x` is bits 7:0 (30_encoding.md R44(b)). -/
  | reservedField (rsv x : Byte)
deriving DecidableEq, Repr

namespace Instr

/-- The pseudo-operation replaced by what it expands to: "`SETLIM <tempc>` expands to `ENCLIM <tempc>`" (30_encoding.md R48). -/
def expand : Instr → Instr
  | dec16 raw => dec16 raw
  | decc raw => decc raw
  | enclim tempc => enclim tempc
  | setlim tempc => enclim tempc
  | reservedOp x => reservedOp x
  | reservedField rsv x => reservedField rsv x

end Instr

end Sys2Proof
end

