-- ==== Sys2Proof/WellFormed.lean ====
section
/-! DEFINITION. Which terms of Instr are commands of the block. The operand fields' types carry their widths, so the one
thing left to check is the condition of the RESERVED.FIELD row. -/

namespace Sys2Proof.Instr

/-- A term is well formed when it stands for a word of its own row: RESERVED.FIELD needs "bits 15:8 (y) not all zero"
(opcode_table.json; 30_encoding.md R44(b)). Every operand value of every other row is legal (00_scope.md §7). -/
def wellFormed : Instr → Bool
  | dec16 _ => true
  | decc _ => true
  | enclim _ => true
  | setlim _ => true
  | reservedOp _ => true
  | reservedField rsv _ => rsv != 0#8

/-- `wellFormed` as a proposition. -/
abbrev WellFormed (i : Instr) : Prop := i.wellFormed = true

end Sys2Proof.Instr
end

