-- ==== Sys2Proof/Decode.lean ====
section
/-! DEFINITION. The command encoding of 30_encoding.md part 2: the decoder, total on all 2^18 words, the encoder, and the
opcode table as data. There are no bytes here: a command is one 18-bit word on `cmd_i` (R41), so the decoder's input is that
word. -/

namespace Sys2Proof

/-- `op`, bits 17:16 (30_encoding.md R41). -/
def opField (w : CmdWord) : BitVec 2 := w.extractLsb' 16 2

/-- `raw`, bits 15:0 of format R (30_encoding.md R41). -/
def rawField (w : CmdWord) : Half := w.extractLsb' 0 16

/-- `rsv`, bits 15:8 of format T (30_encoding.md R41). -/
def rsvField (w : CmdWord) : Byte := w.extractLsb' 8 8

/-- `tempc`, bits 7:0 of format T (30_encoding.md R41). -/
def tempcField (w : CmdWord) : Byte := w.extractLsb' 0 8

/-- The decoder (30_encoding.md R42, R44). "A decoder reads `cmd_i[17:16]` first; the format, and so the meaning of bits 15:0,
follows from it." Total: a word with no defined operation is one of the two reserved commands, by name. -/
def decode (w : CmdWord) : Instr :=
  if opField w = 0b00#2 then .dec16 (rawField w)
  else if opField w = 0b01#2 then .decc (rawField w)
  else if opField w = 0b10#2 then
    if rsvField w = 0x00#8 then .enclim (tempcField w) else .reservedField (rsvField w) (tempcField w)
  else .reservedOp (rawField w)

/-- The encoder (30_encoding.md R41, R47): "`DEC16 r` as `{0b00, r}`, `DECC r` as `{0b01, r}`, `ENCLIM t` as
`{0b10, 0x00, t[7:0]}`"; SETLIM has ENCLIM's encoding (R48). -/
def encode : Instr → CmdWord
  | .dec16 raw => (0b00#2 ++ raw : BitVec (2 + 16))
  | .decc raw => (0b01#2 ++ raw : BitVec (2 + 16))
  | .enclim tempc => (0b10#2 ++ (0x00#8 ++ tempc : BitVec (8 + 8)) : BitVec (2 + 16))
  | .setlim tempc => (0b10#2 ++ (0x00#8 ++ tempc : BitVec (8 + 8)) : BitVec (2 + 16))
  | .reservedOp x => (0b11#2 ++ x : BitVec (2 + 16))
  | .reservedField rsv x => (0b10#2 ++ (rsv ++ x : BitVec (8 + 8)) : BitVec (2 + 16))

/-- The `match` column of spec/opcode_table.json for an instruction's row. -/
def rowMatch : Instr → CmdWord
  | .dec16 _ => 0x00000#18
  | .decc _ => 0x10000#18
  | .enclim _ => 0x20000#18
  | .setlim _ => 0x20000#18
  | .reservedOp _ => 0x30000#18
  | .reservedField _ _ => 0x20000#18

/-- The `mask` column of spec/opcode_table.json for an instruction's row. -/
def rowMask : Instr → CmdWord
  | .dec16 _ => 0x30000#18
  | .decc _ => 0x30000#18
  | .enclim _ => 0x3FF00#18
  | .setlim _ => 0x3FF00#18
  | .reservedOp _ => 0x30000#18
  | .reservedField _ _ => 0x30000#18

/-- An instruction read from a Nat whose bit 0 is `cmd_i[0]`: the low `nbits` bits of `w`, every bit above them 0. Refused
(none) when a bit above bit 17 is set: such a number is no command word, "There is one length" (30_encoding.md R41, R46). -/
def decodeTableWord (nbits w : Nat) : Option Instr :=
  if w % 2 ^ nbits < 2 ^ 18 then some (decode (BitVec.ofNat 18 (w % 2 ^ nbits))) else none

end Sys2Proof
end

