-- ==== Sys2Proof/Config.lean ====
section
/-! DEFINITION. What an implementation of the block fixes, and the values the spec leaves open: the width FLEN of the
Celsius result, and what a result port carries when the command does not name it. -/

namespace Sys2Proof.Config

/-- FLEN, the width of the DECC result: "open parameter, 32 or 64; default 32" (00_scope.md R7, D7, U12).
binary16 is not among the choices: "A model must not use binary16" (40_decode.md R52). -/
inductive Flen where
  /-- FLEN = 32 -/
  | binary32
  /-- FLEN = 64 -/
  | binary64
deriving DecidableEq, Repr

/-- The width in bits. -/
def Flen.width : Flen → Nat
  | .binary32 => 32
  | .binary64 => 64

/-- The default of FLEN, "the spec's own choice, after the signature's `float`" (00_scope.md R7, D7). -/
def defaultFlen : Flen := .binary32

/-- FREE VALUE (log entry 5). What `res16_o` carries for a command that does not name it, and during a fault: "unspecified"
(30_encoding.md R43, 60_exceptions.md R66, U1). A function of the command word because "All outputs are combinational
functions of `cmd_i` alone" (10_state.md R11). Nothing is known of its values. -/
opaque freeRes16 : CmdWord → Half

/-- FREE VALUE (log entry 5). What `resf_o` carries, at FLEN = 32, for a command that does not name it, and during a fault. -/
opaque freeResf32 : CmdWord → BitVec 32

/-- FREE VALUE (log entry 5). What `resf_o` carries, at FLEN = 64, for a command that does not name it, and during a fault. -/
opaque freeResf64 : CmdWord → BitVec 64

end Sys2Proof.Config
end

