-- ==== Sys2Proof/Machine/State.lean ====
section
/-! DEFINITION. The responses of the block, the machine's state, and the machine before its first command. The block "holds
no architectural state" (10_state.md R10): State holds its ports, its build parameter and the host's record of the run. -/

namespace Sys2Proof.Machine

open Sys2Proof

/-- CELSIUS, the result of DECC: an IEEE-754 binary pattern of width FLEN (30_encoding.md R39). -/
inductive Celsius where
  /-- a binary32 pattern -/
  | binary32 (bits : BitVec 32)
  /-- a binary64 pattern -/
  | binary64 (bits : BitVec 64)
deriving DecidableEq, Repr

/-- The two faults of the block (60_exceptions.md R65). -/
inductive FaultCode where
  /-- `ReservedOp`, `fcode_o` = 0b01: `cmd_i[17:16] = 0b11` -/
  | reservedOp
  /-- `ReservedField`, `fcode_o` = 0b10: `cmd_i[17:16] = 0b10` and `cmd_i[15:8]` not zero -/
  | reservedField
deriving DecidableEq, Repr

/-- The abstract response, "one of four cases" (30_encoding.md R43). A port that the command does not name has no place in it:
"leave it out of the abstract response altogether" (93_implementation_defined.md U1). -/
inductive Response where
  /-- `Sixteenths(v)`, v in format SIXT16 -/
  | sixteenths (v : Half)
  /-- `Celsius(f)`, f in format CELSIUS -/
  | celsius (f : Celsius)
  /-- `Limit(w)`, w in format LIMIT16 -/
  | limit (w : Half)
  /-- `Fault(code)` -/
  | fault (code : FaultCode)
deriving DecidableEq, Repr

/-- The ports of 10_state.md R11, the parameter FLEN of 00_scope.md R7 and the run of 70_reset_and_hazards.md R83. -/
structure State where
  /-- FLEN (00_scope.md R7). A build parameter: no step writes it (log entry 3). -/
  flen : Config.Flen
  /-- `cmd_i`, the command word last presented (10_state.md R11). -/
  cmdI : CmdWord
  /-- `res16_o`, result of DEC16 or of ENCLIM (10_state.md R11). -/
  res16O : Half
  /-- `resf_o`, result of DECC, FLEN wide (10_state.md R11). -/
  resfO : Celsius
  /-- `fault_o`, 1 when the command is not a defined command (10_state.md R11). -/
  faultO : BitVec 1
  /-- `fcode_o`, the fault code (10_state.md R11, 60_exceptions.md R65). -/
  fcodeO : BitVec 2
  /-- The commands the host has yet to issue, the next one first (R12, R83; log entry 4). -/
  pending : List CmdWord
  /-- The responses so far, one per command, in the order of the commands: the run's outcome (R83, R67; log entry 4). -/
  responses : List Response
deriving DecidableEq, Repr

/-- Why the machine would stop with a fault: no reason exists, and the type has no constructor. A faulting command is answered
by a `Fault` response and the block goes on (60_exceptions.md R66, R67), and the block "has no halt operation, cannot hang"
(70_reset_and_hazards.md R83). -/
inductive Fault where
deriving DecidableEq, Repr

/-- Why an instruction would have no meaning. No meaning of this model raises it. -/
inductive Refusal where
  /-- Raised by `exec` for an instruction that has no meaning yet; no arm of this model does. Safe: the machine stops where the
  hardware goes on. -/
  | notModelled (mnemonic : String)
deriving DecidableEq, Repr

/-- The machine before its first command. The block has no reset input and nothing to reset (10_state.md R22, R78). FLEN is
at its default (R7). `cmd_i` is "unspecified" before the first command (R22): DESIGN CHOICE, the word 0x00000, and the outputs
answer it (log entry 2). The host has issued nothing and has collected nothing (log entry 4). -/
def State.reset : State where
  flen := Config.defaultFlen
  cmdI := 0x00000#18
  res16O := 0x0000#16
  resfO := .binary32 0x00000000#32
  faultO := 0#1
  fcodeO := 0b00#2
  pending := []
  responses := []

end Sys2Proof.Machine
end

