-- ==== Sys2Proof/Machine/Flags.lean ====
section
/-! DEFINITION. The block has no flags and no condition codes (10_state.md R13). Its "only status-like outputs are `fault_o`
and `fcode_o`", which are computed here from the response to the current command. -/

namespace Sys2Proof.Machine

/-- `fcode_o` of a fault (60_exceptions.md R65). -/
def FaultCode.bits : FaultCode → BitVec 2
  | .reservedOp => 0b01#2
  | .reservedField => 0b10#2

/-- `fault_o` (30_encoding.md R43): 1 exactly when the response is a fault. -/
def Response.faultFlag : Response → BitVec 1
  | .sixteenths _ => 0#1
  | .celsius _ => 0#1
  | .limit _ => 0#1
  | .fault _ => 1#1

/-- `fcode_o` (30_encoding.md R43): `0b00` unless the response is a fault. -/
def Response.faultBits : Response → BitVec 2
  | .sixteenths _ => 0b00#2
  | .celsius _ => 0b00#2
  | .limit _ => 0b00#2
  | .fault code => code.bits

end Sys2Proof.Machine
end

