-- ==== Sys2Proof/Machine/Ieee754.lean ====
section
/-! DEFINITION. IEEE-754 binary32 and binary64 as far as the block needs them: the pattern of a count of sixteenths divided by
16 (40_decode.md R52), and the number a pattern denotes (30_encoding.md R39). -/

namespace Sys2Proof.Machine

open Sys2Proof

/-- `e` of 40_decode.md R52: the "index of the highest set bit of m", so 2^e ≤ m < 2^(e+1). -/
def topBit (m : Nat) : Nat := Nat.log2 m

/-- The binary32 pattern of `s / 16` (40_decode.md R52): `{ sign, (123 + e) as 8 bits, (m - 2^e) · 2^(23 - e) as 23 bits }`,
and all bits zero for `s = 0`. -/
def floatBits32 (s : Int) : BitVec 32 :=
  if s = 0 then 0#32
  else
    let m := s.natAbs
    let e := topBit m
    (BitVec.ofBool (decide (s < 0)) ++
      (BitVec.ofNat 8 (123 + e) ++ BitVec.ofNat 23 ((m - 2 ^ e) * 2 ^ (23 - e)) : BitVec (8 + 23)) : BitVec (1 + 31))

/-- The binary64 pattern of `s / 16` (40_decode.md R52): `{ sign, (1019 + e) as 11 bits, (m - 2^e) · 2^(52 - e) as 52 bits }`,
and all bits zero for `s = 0`. -/
def floatBits64 (s : Int) : BitVec 64 :=
  if s = 0 then 0#64
  else
    let m := s.natAbs
    let e := topBit m
    (BitVec.ofBool (decide (s < 0)) ++
      (BitVec.ofNat 11 (1019 + e) ++ BitVec.ofNat 52 ((m - 2 ^ e) * 2 ^ (52 - e)) : BitVec (11 + 52)) : BitVec (1 + 63))

/-- `float_FLEN(s / 16)` (40_decode.md R51, R52). -/
def floatOfSixteenths : Config.Flen → Int → Celsius
  | .binary32, s => .binary32 (floatBits32 s)
  | .binary64, s => .binary64 (floatBits64 s)

/-- The width of a pattern, as the FLEN it belongs to. -/
def Celsius.flen : Celsius → Config.Flen
  | .binary32 _ => .binary32
  | .binary64 _ => .binary64

/-- The exponent field: bits 30:23 of binary32, bits 62:52 of binary64 (30_encoding.md R39). -/
def Celsius.exponent : Celsius → Nat
  | .binary32 b => (b.extractLsb' 23 8).toNat
  | .binary64 b => (b.extractLsb' 52 11).toNat

/-- The fraction field: bits 22:0 of binary32, bits 51:0 of binary64 (30_encoding.md R39). -/
def Celsius.fraction : Celsius → Nat
  | .binary32 b => (b.extractLsb' 0 23).toNat
  | .binary64 b => (b.extractLsb' 0 52).toNat

/-- The sign bit: bit 31 of binary32, bit 63 of binary64 (30_encoding.md R39). -/
def Celsius.sign : Celsius → Bool
  | .binary32 b => b.getLsbD 31
  | .binary64 b => b.getLsbD 63

/-- The width of the fraction field (30_encoding.md R39). -/
def fractionWidth : Config.Flen → Nat
  | .binary32 => 23
  | .binary64 => 52

/-- The exponent bias (30_encoding.md R39). -/
def exponentBias : Config.Flen → Nat
  | .binary32 => 127
  | .binary64 => 1023

/-- The largest exponent field, which a normal number does not have: 255 for binary32, 2047 for binary64 (PRESUMED, IEEE-754;
log entry 6). -/
def maxExponent : Config.Flen → Nat
  | .binary32 => 255
  | .binary64 => 2047

/-- The number a pattern denotes, in the two cases 30_encoding.md R39 gives: "a normal number has value
(-1)^sign × 2^(exponent-bias) × (1 + fraction/2^(fraction width)); all bits zero is +0.0". Any other pattern (minus zero, a
subnormal, an infinity, a NaN) has no value here: the rule gives none. -/
def Celsius.value (f : Celsius) : Option Rat :=
  if f.exponent = 0 then
    if f.fraction = 0 ∧ f.sign = false then some 0 else none
  else if f.exponent = maxExponent f.flen then none
  else
    let significand : Int := 2 ^ fractionWidth f.flen + f.fraction
    let magnitude : Rat :=
      mkRat (significand * 2 ^ f.exponent) (2 ^ (exponentBias f.flen + fractionWidth f.flen))
    some (if f.sign then -magnitude else magnitude)

end Sys2Proof.Machine
end

