-- ==== Sys2Proof/Machine/Operands.lean ====
section
/-! DEFINITION. The literals of the block (00_scope.md R7) and the parts of its operands (30_encoding.md R35, R37, R45). Each
operand is one contiguous field of the command word, so nothing is assembled from scattered bits. -/

namespace Sys2Proof.Machine

open Sys2Proof

/-- `SEXT_OR`, the OR mask for a negative field (00_scope.md R7). -/
abbrev sextOr : Half := 0xF000#16

/-- `POS_MASK`, the AND mask for a non-negative field (00_scope.md R7). -/
abbrev posMask : Half := 0x0FFF#16

/-- The weight of `SIGN_BIT`, bit 12 (00_scope.md R7). -/
abbrev signWeight : Half := 0x1000#16

/-- `LIMIT_MASK`, bits 12:2 (00_scope.md R7). -/
abbrev limitMask : Half := 0x1FFC#16

/-- `FRAC_BITS`: the unit is 1/16 °C (00_scope.md R7). -/
abbrev fracBits : Nat := 4

/-- `raw[12]`, the sign bit of the 13-bit field (30_encoding.md R35). -/
def rawSign (raw : Half) : Bool := raw.getLsbD 12

/-- `raw[12:0]`, the 13-bit field of a RAW16 or LIMIT16 word; bits 15:13 are "not part of the field" (30_encoding.md R35, R38). -/
def fieldOf (raw : Half) : BitVec 13 := raw.extractLsb' 0 13

/-- `t16 = sext_16(tempc)`: ENCLIM widens its operand "to 16 bits by sign extension ... before the shift" (30_encoding.md R45(b)). -/
def widenTempc (tempc : Byte) : Half := tempc.signExtend 16

/-- `tempc[7]`, the sign of the operand of ENCLIM (30_encoding.md R37). -/
def tempcSign (tempc : Byte) : Bool := tempc.getLsbD 7

end Sys2Proof.Machine
end

