-- ==== Sys2Proof/Machine/Ops.lean ====
section
/-! DEFINITION. The operations every command is made of: what the ports carry for a response, answering a command, and taking
a fault. The block has no registers and makes no memory access (10_state.md R11, 20_memory.md R23), so there are no others. -/

namespace Sys2Proof.Machine

open Sys2Proof

/-- The free value on `resf_o`, FLEN wide (30_encoding.md R43, U1; log entry 5). -/
def freeResf : Config.Flen → CmdWord → Celsius
  | .binary32, w => .binary32 (Config.freeResf32 w)
  | .binary64, w => .binary64 (Config.freeResf64 w)

/-- `res16_o` for a response to the command word `w` (30_encoding.md R43): the result of DEC16 or of ENCLIM, and a free value
where the row says "unspecified". -/
def Response.res16 (w : CmdWord) : Response → Half
  | .sixteenths v => v
  | .celsius _ => Config.freeRes16 w
  | .limit v => v
  | .fault _ => Config.freeRes16 w

/-- `resf_o` for a response to the command word `w` (30_encoding.md R43): the result of DECC, and a free value where the row
says "unspecified". -/
def Response.resf (flen : Config.Flen) (w : CmdWord) : Response → Celsius
  | .sixteenths _ => freeResf flen w
  | .celsius f => f
  | .limit _ => freeResf flen w
  | .fault _ => freeResf flen w

/-- `result <- v` (00_scope.md R9): the response goes to the output ports, as the table of 30_encoding.md R43 lays it out, and is
the one response to this command in the run (70_reset_and_hazards.md R83). -/
def State.answer (s : State) (r : Response) : State :=
  { s with
    res16O := r.res16 s.cmdI
    resfO := r.resf s.flen s.cmdI
    faultO := r.faultFlag
    fcodeO := r.faultBits
    responses := s.responses ++ [r] }

/-- Taking a fault, "trap entry" (60_exceptions.md R66): `raise <Fault>` "means exactly" that the response to this command is
that fault. "Nothing else happens: no state is saved because there is none, no mode changes, control goes nowhere". There is no
return from it (R67). -/
def State.takeFault (s : State) (code : FaultCode) : State :=
  s.answer (.fault code)

/-- The host presents the next command word on `cmd_i` (10_state.md R11, R12): it is no longer among the commands to come. -/
def State.present (s : State) (w : CmdWord) (rest : List CmdWord) : State :=
  { s with cmdI := w, pending := rest }

/-- The host chooses further commands (70_reset_and_hazards.md R83, 60_exceptions.md R77): they come after those it has already
chosen, "in the order the host issues them" (20_memory.md R31). -/
def State.issue (s : State) (ws : List CmdWord) : State :=
  { s with pending := s.pending ++ ws }

end Sys2Proof.Machine
end

