-- ==== Sys2Proof/Machine/LimitEncode.lean ====
section
/-! DEFINITION. The encoder family, ENCLIM and its alias SETLIM (41_encode.md). -/

namespace Sys2Proof.Machine

open Sys2Proof

/-- The bit-12 step of 41_encode.md R57: "sign-extend into bit 12 if negative (set bit `0x1000`, else clear)". -/
def imposeSign (negative : Bool) (t : Half) : Half :=
  if negative then t ||| signWeight else t &&& ~~~signWeight

/-- The steps of ENCLIM after its operand is widened (41_encode.md R57): shift left by 4 in 16 bits, set or clear bit 12, mask
with `0x1FFC`. Nothing saturates (R61) and nothing rounds (R63). -/
def limitOfWidened (negative : Bool) (t : Half) : Half :=
  imposeSign negative (t <<< fracBits) &&& limitMask

/-- The word ENCLIM computes (41_encode.md R57). -/
def limitOf (tempc : Byte) : Half :=
  limitOfWidened (tempcSign tempc) (widenTempc tempc)

/-- `ENCLIM tempc` (41_encode.md R57). -/
def execEnclim (tempc : Byte) (s : State) : Host.Outcome State Fault Refusal :=
  .next (s.answer (.limit (limitOf tempc)))

/-- `SETLIM tempc` (41_encode.md R58): "identical to `ENCLIM tempc` in encoding, result, flags and faults". Storing the result in
a `Device` field is the host's. -/
def execSetlim (tempc : Byte) (s : State) : Host.Outcome State Fault Refusal :=
  .next (s.answer (.limit (limitOf tempc)))

end Sys2Proof.Machine
end

