-- ==== Sys2Proof/Machine/Reserved.lean ====
section
/-! DEFINITION. The two reserved encodings (30_encoding.md R44): "a fault, neither a hint; there is no custom space and no
encoding that executes as a no-op". The fault is a response and the block goes on (60_exceptions.md R66, R67), so each meaning
is a next state. -/

namespace Sys2Proof.Machine

open Sys2Proof

/-- `op = 0b11`: fault `ReservedOp`, "for every value of bits 15:0" (30_encoding.md R44(a)). -/
def execReservedOp (_x : Half) (s : State) : Host.Outcome State Fault Refusal :=
  .next (s.takeFault .reservedOp)

/-- Format T with `rsv` not zero: fault `ReservedField` (30_encoding.md R44(b)). -/
def execReservedField (_rsv _x : Byte) (s : State) : Host.Outcome State Fault Refusal :=
  .next (s.takeFault .reservedField)

end Sys2Proof.Machine
end

