-- ==== Sys2Proof/Machine/TempDecode.lean ====
section
/-! DEFINITION. The decoder family, DEC16 and DECC (40_decode.md). -/

namespace Sys2Proof.Machine

open Sys2Proof

/-- The vector DEC16 computes (40_decode.md R50): "If set, OR the value with `0xF000` (sign-extend upward) ...; otherwise mask
with `0x0FFF`. No rounding; purely bitwise." -/
def sixteenthsOf (raw : Half) : Half :=
  if rawSign raw then raw ||| sextOr else raw &&& posMask

/-- What DECC computes (40_decode.md R51): "`DECC` is `DEC16` followed by an exact division by 16 into floating point" (R49). -/
def celsiusOf (flen : Config.Flen) (raw : Half) : Celsius :=
  floatOfSixteenths flen (sixteenthsOf raw).toInt

/-- `DEC16 raw` (40_decode.md R50). -/
def execDec16 (raw : Half) (s : State) : Host.Outcome State Fault Refusal :=
  .next (s.answer (.sixteenths (sixteenthsOf raw)))

/-- `DECC raw` (40_decode.md R51). -/
def execDecc (raw : Half) (s : State) : Host.Outcome State Fault Refusal :=
  .next (s.answer (.celsius (celsiusOf s.flen raw)))

end Sys2Proof.Machine
end

