-- ==== Sys2Proof/Machine/Dispatch.lean ====
section
/-! DEFINITION. One arm per constructor of Instr, each a direct call of its meaning. -/

namespace Sys2Proof.Machine

open Sys2Proof

def exec (i : Instr) (s : State) : Host.Outcome State Fault Refusal :=
  match i with
  | .dec16 raw => Sys2Proof.Machine.execDec16 raw s
  | .decc raw => Sys2Proof.Machine.execDecc raw s
  | .enclim tempc => Sys2Proof.Machine.execEnclim tempc s
  | .setlim tempc => Sys2Proof.Machine.execSetlim tempc s
  | .reservedOp x => Sys2Proof.Machine.execReservedOp x s
  | .reservedField rsv x => Sys2Proof.Machine.execReservedField rsv x s

end Sys2Proof.Machine
end

