-- ==== Sys2Proof/Machine/Step.lean ====
section
/-! DEFINITION. One step: the next command of the host is presented, decoded and answered. -/

namespace Sys2Proof.Machine

open Sys2Proof

/-- One command is one atomic step (20_memory.md R29, 70_reset_and_hazards.md R82). The block fetches nothing and has no program
counter: "the host presents one command at a time and the block answers it" (10_state.md R12). When the host has no further
command the run has ended (70_reset_and_hazards.md R83) and the state stays as it is (log entry 4). -/
def step (s : State) : Host.Outcome State Fault Refusal :=
  match s.pending with
  | [] => .next s
  | w :: rest => exec (decode w) (s.present w rest)

/-- `s` with the command word whose bits are `w` as the host's next command (bits above `nbits` zero), ahead of those already
pending. It stands for the host's choice of commands (log entry 4). -/
def State.withFetchWord (s : State) (nbits w : Nat) : State :=
  { s with pending := BitVec.ofNat 18 (w % 2 ^ nbits) :: s.pending }

end Sys2Proof.Machine
end

