-- ==== Sys2Proof/Machine/Assembler.lean ====
section
/-! DEFINITION. The assembler of 30_encoding.md R47 and R48, from its tokens on: a mnemonic and one operand literal become a
command, or an assembly error. Comments and line breaks are not modelled (log entry 7). -/

namespace Sys2Proof.Machine

open Sys2Proof

/-- An operand as it is written (30_encoding.md R47). -/
inductive AsmOperand where
  /-- a hexadecimal pattern, `0x…` -/
  | hex (n : Nat)
  /-- a whole number in decimal -/
  | decimal (n : Int)
  /-- a number written with a fractional part, num/den -/
  | fractional (num : Int) (den : Nat)
deriving DecidableEq, Repr

/-- One line: a mnemonic and one operand (30_encoding.md R47). -/
inductive AsmLine where
  /-- `DEC16 <raw>` -/
  | dec16 (raw : AsmOperand)
  /-- `DECC <raw>` -/
  | decc (raw : AsmOperand)
  /-- `ENCLIM <tempc>` -/
  | enclim (tempc : AsmOperand)
  /-- `SETLIM <tempc>` -/
  | setlim (tempc : AsmOperand)
deriving DecidableEq, Repr

/-- The assembly errors. "An operand that does not fit its field ... is an assembly error, not a command" (30_encoding.md R47). -/
inductive AsmError where
  /-- a `<raw>` above `0xFFFF` -/
  | rawTooWide
  /-- a `<raw>` not written `0xHHHH` -/
  | rawNotHex
  /-- a `<tempc>` outside -128..127, or an 8-bit pattern above `0xFF`: refused, never truncated or saturated (D17, U10) -/
  | tempcOutOfRange
  /-- a fractional `<tempc>`: "callers passing fractional values must pre-round" (R47, U9) -/
  | tempcFractional
deriving DecidableEq, Repr

/-- `<raw>`: a "16-bit value, written 0xHHHH" (30_encoding.md R47). -/
def assembleRaw : AsmOperand → Except AsmError Half
  | .hex n => if n ≤ 0xFFFF then .ok (BitVec.ofNat 16 n) else .error .rawTooWide
  | .decimal _ => .error .rawNotHex
  | .fractional _ _ => .error .rawNotHex

/-- `<tempc>`: an "integer -128..127 in decimal, or its 8-bit pattern 0xHH" (30_encoding.md R47). -/
def assembleTempc : AsmOperand → Except AsmError Byte
  | .hex n => if n ≤ 0xFF then .ok (BitVec.ofNat 8 n) else .error .tempcOutOfRange
  | .decimal n => if -128 ≤ n ∧ n ≤ 127 then .ok (BitVec.ofInt 8 n) else .error .tempcOutOfRange
  | .fractional _ _ => .error .tempcFractional

/-- One line to its command (30_encoding.md R47). -/
def assembleLine : AsmLine → Except AsmError Instr
  | .dec16 o => (assembleRaw o).map .dec16
  | .decc o => (assembleRaw o).map .decc
  | .enclim o => (assembleTempc o).map .enclim
  | .setlim o => (assembleTempc o).map .setlim

/-- A program, one command per line (30_encoding.md R47), to the command words the host issues; the first error stops it. -/
def assembleProgram : List AsmLine → Except AsmError (List CmdWord)
  | [] => .ok []
  | line :: rest =>
    match assembleLine line with
    | .error e => .error e
    | .ok i => (assembleProgram rest).map (encode i :: ·)

end Sys2Proof.Machine
end

