-- ==== Sys2Proof/Machine/Environment.lean ====
section
/-! DEFINITION. (environment) What the spec says of the data on its way into and out of the block: the host's `Device` record,
the sensor's register map and its two pieces of hidden state, the byte order, masks and frames of the bus, the host's result bits.
None of it is the block's: no step calls anything here and State holds none of it (00_scope.md §7, "Not state"). The host
operations themselves are out of scope (00_scope.md R6); what the bus or the sensor answers is an argument here, never a choice. -/

namespace Sys2Proof.Machine

open Sys2Proof

/-- `TEMP_MASK` (00_scope.md R7; 20_memory.md R27). -/
abbrev tempMask : Half := 0x1FFF#16

/-- `CONFIG_MASK` (00_scope.md R7; 10_state.md R16, R18). -/
abbrev configMask : Half := 0x01FF#16

/-- Whether the host masks the high byte of a written value. The source has the mask `0x7F00` and calls it "a likely latent bug"
(20_memory.md R25); 93_implementation_defined.md U6 makes it a "`parameter` for a host model (mask kept as the source states it, or
removed as §9 suggests)". DESIGN CHOICE (log entry 14): it is an argument of the frame, and neither value is preferred. -/
inductive HighByteMask where
  /-- the mask as the source states it -/
  | kept
  /-- the mask removed, as the source's §9 suggests -/
  | removed
deriving DecidableEq, Repr

/-- The bits of a written value that the mask on its high byte lets through (20_memory.md R25, U6). -/
def HighByteMask.bits : HighByteMask → Half
  | .kept => 0x7F00#16
  | .removed => 0xFF00#16

/-- Known constant: the manufacturer ID (10_state.md R18). -/
abbrev knownManufacturerId : Half := 0x0054#16

/-- Known constant: the minimum valid device ID (10_state.md R18). -/
abbrev minimumDeviceId : Half := 0x0400#16

/-- The sensor's registers, "the complete map the source gives" (10_state.md R17). -/
inductive SensorReg where
  /-- CONFIG -/
  | config
  /-- T-upper limit -/
  | tUpper
  /-- T-lower limit -/
  | tLower
  /-- T-critical limit -/
  | tCrit
  /-- ambient temperature, TA -/
  | ambient
  /-- manufacturer ID -/
  | manufacturerId
  /-- device ID / resolution, a shared address -/
  | deviceIdOrResolution
deriving DecidableEq, Repr

/-- The pointer value that selects a register (10_state.md R17). -/
def SensorReg.pointer : SensorReg → Byte
  | .config => 0x01#8
  | .tUpper => 0x02#8
  | .tLower => 0x03#8
  | .tCrit => 0x04#8
  | .ambient => 0x05#8
  | .manufacturerId => 0x06#8
  | .deviceIdOrResolution => 0x07#8

/-- The register a pointer value selects; none for `0x00` and `0x08` to `0xFF`, which "are not mentioned by the source" and of
which a model "must not assume anything" (10_state.md R17, N7). -/
def SensorReg.ofPointer (p : Byte) : Option SensorReg :=
  [SensorReg.config, .tUpper, .tLower, .tCrit, .ambient, .manufacturerId, .deviceIdOrResolution].find? (·.pointer == p)

/-- The widths of a register's reads on the bus: 16 bits, and at the shared pointer `0x07` also 8, "when written and read back as
resolution" (10_state.md R17, 90_conflicts.md C9). -/
def SensorReg.readWidths : SensorReg → List Nat
  | .config => [16]
  | .tUpper => [16]
  | .tLower => [16]
  | .tCrit => [16]
  | .ambient => [16]
  | .manufacturerId => [16]
  | .deviceIdOrResolution => [16, 8]

/-- The width of a register's writes on the bus; none for a register that no host operation of the map writes (10_state.md R17). -/
def SensorReg.writeWidth : SensorReg → Option Nat
  | .config => some 16
  | .tUpper => some 16
  | .tLower => some 16
  | .tCrit => some 16
  | .ambient => none
  | .manufacturerId => none
  | .deviceIdOrResolution => some 8

/-- The mask the host applies on a 16-bit write: "`0x01FF` on write" for CONFIG, "`0x1FFF` on write" for the limits, none for the
others (10_state.md R17). -/
def SensorReg.writeMask : SensorReg → Option Half
  | .config => some configMask
  | .tUpper => some tempMask
  | .tLower => some tempMask
  | .tCrit => some tempMask
  | .ambient => none
  | .manufacturerId => none
  | .deviceIdOrResolution => none

/-- The formats of the map (10_state.md R17). -/
inductive RegFormat where
  /-- bit-field, positions not in the source -/
  | bitField
  /-- LIMIT16 (30_encoding.md R38) -/
  | limit16
  /-- RAW16 (30_encoding.md R35) -/
  | raw16
  /-- plain 16-bit -/
  | plain16
  /-- plain as device ID, 2-bit enumeration as resolution -/
  | plainOrResolution
deriving DecidableEq, Repr

/-- The format of a register (10_state.md R17). -/
def SensorReg.format : SensorReg → RegFormat
  | .config => .bitField
  | .tUpper => .limit16
  | .tLower => .limit16
  | .tCrit => .limit16
  | .ambient => .raw16
  | .manufacturerId => .plain16
  | .deviceIdOrResolution => .plainOrResolution

/-- The host operations that the map names (10_state.md R17). -/
inductive HostOperation where
  | loadDevice
  | resetInterrupts
  | applyConfiguration
  | applyTemperatureConfiguration
  | readTemperature
deriving DecidableEq, Repr

/-- The host operations that the map says read a register (10_state.md R17). The read-back of a written value is not listed there. -/
def SensorReg.readBy : SensorReg → List HostOperation
  | .config => [.loadDevice, .resetInterrupts, .applyConfiguration]
  | .tUpper => []
  | .tLower => []
  | .tCrit => []
  | .ambient => [.readTemperature]
  | .manufacturerId => [.loadDevice]
  | .deviceIdOrResolution => [.loadDevice]

/-- The host operations that the map says write a register (10_state.md R17). -/
def SensorReg.writtenBy : SensorReg → List HostOperation
  | .config => [.applyConfiguration]
  | .tUpper => [.applyTemperatureConfiguration]
  | .tLower => [.applyTemperatureConfiguration]
  | .tCrit => [.applyTemperatureConfiguration]
  | .ambient => []
  | .manufacturerId => []
  | .deviceIdOrResolution => [.applyConfiguration]

/-- The four steps of the `resolution` enumeration; which 2-bit code means which is not in the source (30_encoding.md R40, N5). -/
inductive Resolution where
  /-- 0.5 °C -/
  | half
  /-- 0.25 °C -/
  | quarter
  /-- 0.125 °C -/
  | eighth
  /-- 0.0625 °C -/
  | sixteenth
deriving DecidableEq, Repr

/-- The step in sixteenths of a degree (30_encoding.md R40). -/
def Resolution.step : Resolution → Nat
  | .half => 8
  | .quarter => 4
  | .eighth => 2
  | .sixteenth => 1

/-- The host's `Device` record (10_state.md R15). A field that `load_device` does not fill is `none`, "unwritten", until the
host supplies it (10_state.md R22, N8). -/
structure Device where
  /-- bus address, a "small integer" -/
  address : Nat
  /-- read once at load time -/
  manufacturerId : Half
  /-- read once at load time -/
  deviceId : Half
  /-- mirrors CONFIG; the positions of its fields are not in the source (N6) -/
  configuration : Half
  /-- not read by any operation of the block -/
  resolution : Resolution
  /-- limit word, raw (encoded) form -/
  tUpper : Option Half
  /-- limit word, raw (encoded) form -/
  tLower : Option Half
  /-- limit word, raw (encoded) form -/
  tCrit : Option Half
  /-- the most recently read raw ambient-temperature word -/
  temperature : Option Half
deriving DecidableEq, Repr

/-- The registers `load_device` reads, "in fixed order — manufacturer ID, device ID, configuration, resolution"
(70_reset_and_hazards.md R79). -/
def loadOrder : List SensorReg := [.manufacturerId, .deviceIdOrResolution, .config, .deviceIdOrResolution]

/-- The fresh record that `load_device` returns when the four reads of `loadOrder` answer these words (10_state.md R22): `address` is
the operation's argument, and the four fields that it does not read are unwritten. How the resolution word gives one of the four
steps is not in the source (N5), so it is an argument (log entry 17). -/
def Device.load (stepOf : Half → Resolution) (address : Nat) (manufacturerId deviceId configuration resolution : Half) : Device where
  address := address
  manufacturerId := manufacturerId
  deviceId := deviceId
  configuration := configuration
  resolution := stepOf resolution
  tUpper := none
  tLower := none
  tCrit := none
  temperature := none

/-- "if the two bytes arrive in the order `b0`, `b1`, the raw register value is `{b0, b1}`" (20_memory.md R24). -/
def rawOfBytes (b0 b1 : Byte) : Half := (b0 ++ b1 : BitVec (8 + 8))

/-- A value on its way to a register, with the register's mask applied (10_state.md R16, R17): CONFIG "always masked with the 9-bit
config mask", a limit "masked with the full 13-bit temperature-register mask" (20_memory.md R27). -/
def SensorReg.toBus (reg : SensorReg) (v : Half) : Half :=
  match reg.writeMask with
  | some mask => v &&& mask
  | none => v

/-- The 3-byte frame "(register address, high byte, low byte)" of `write_and_verify_16` for the value `v` of the host, the register's
mask applied and then the mask on the high byte (20_memory.md R25, R27). None for a register that the map gives no 16-bit write
(10_state.md R17; log entry 17). -/
def writeFrame16 (mask : HighByteMask) (reg : SensorReg) (v : Half) : Option (List Byte) :=
  if reg.writeWidth = some 16 then
    some [reg.pointer, (reg.toBus v &&& mask.bits).extractLsb' 8 8, (reg.toBus v).extractLsb' 0 8]
  else none

/-- The 2-byte frame "(register, value)" of `write_and_verify_8` (20_memory.md R25). None for a register that the map gives no 8-bit
write (10_state.md R17; log entry 17). -/
def writeFrame8 (reg : SensorReg) (v : Byte) : Option (List Byte) :=
  if reg.writeWidth = some 8 then some [reg.pointer, v] else none

/-- The three writes of the limits, in the order tUpper, tLower, tCrit to pointers 0x02, 0x03, 0x04 (20_memory.md R27,
60_exceptions.md R69 "all three writes are always attempted"). Reading an unwritten limit faults (U11). DESIGN CHOICE (log entry 17):
the three frames are given together or not at all, so with one limit unwritten there is none, not even those before it. -/
def Device.limitFrames (mask : HighByteMask) (d : Device) : Option (List (List Byte)) := do
  let upper ← writeFrame16 mask .tUpper (← d.tUpper)
  let lower ← writeFrame16 mask .tLower (← d.tLower)
  let crit ← writeFrame16 mask .tCrit (← d.tCrit)
  return [upper, lower, crit]

/-- What `read_temperature` leaves in the record when the bus answers the bytes `b0`, `b1` (20_memory.md R26): the raw word,
unmasked. -/
def Device.readTemperature (d : Device) (b0 b1 : Byte) : Device :=
  { d with temperature := some (rawOfBytes b0 b1) }

/-- The host stores an encoder result (20_memory.md R27). -/
def Device.setUpper (d : Device) (w : Half) : Device := { d with tUpper := some w }

/-- The host stores an encoder result (20_memory.md R27). -/
def Device.setLower (d : Device) (w : Half) : Device := { d with tLower := some w }

/-- The host stores an encoder result (20_memory.md R27). -/
def Device.setCrit (d : Device) (w : Half) : Device := { d with tCrit := some w }

/-- `set_shutdown`: "sets or clears the shutdown bit in `device.configuration` in memory only" (60_exceptions.md R76). Its bit
position is not in the source (N6), so it is an argument. -/
def Device.setShutdown (shutdownBit : Fin 16) (d : Device) (shut : Bool) : Device :=
  let bit : Half := 1#16 <<< shutdownBit.val
  { d with configuration := if shut then d.configuration ||| bit else d.configuration &&& ~~~bit }

/-- A read-back compared with the value written: `true` is a `VerificationMismatch`, "a written register's read-back does not
equal the intended value" (60_exceptions.md R69). -/
def verifyMismatch {width : Nat} (intended readBack : BitVec width) : Bool := intended != readBack

/-- The result of `apply_temperature_configuration`: bits 0, 1, 2 are the mismatches on tUpper, tLower, tCrit (60_exceptions.md R69). -/
def temperatureResult (upper lower crit : Bool) : BitVec 3 :=
  (BitVec.ofBool crit ++ (BitVec.ofBool lower ++ BitVec.ofBool upper : BitVec (1 + 1)) : BitVec (1 + 2))

/-- The result of `apply_configuration`: bit 0 lock detected, bit 1 CONFIG mismatch, bit 2 RESOLUTION mismatch (60_exceptions.md R69). -/
def configurationResult (lock config resolution : Bool) : BitVec 3 :=
  (BitVec.ofBool resolution ++ (BitVec.ofBool config ++ BitVec.ofBool lock : BitVec (1 + 1)) : BitVec (1 + 2))

/-- The hidden state the source exposes, both inside the sensor (10_state.md R19). Its power-on values are "unspecified (not in
source)" (R22, N8); `none` stands for such a value, which no operation here reads (log entry 16). -/
structure SensorHidden where
  /-- the register the last pointer selected -/
  selected : Option SensorReg
  /-- the latched alert condition -/
  alertLatched : Option Bool
deriving DecidableEq, Repr

/-- The hidden state at power-on: nothing is known of it (10_state.md R22, N8). -/
def SensorHidden.powerOn : SensorHidden := { selected := none, alertLatched := none }

/-- `send_pointer` selects "the active register for a subsequent read" (10_state.md R19). DESIGN CHOICE (log entry 15): whatever
`flags` is, the selection depends on the register alone. The source gives `flags` no meaning (N14), and U8 calls it a `parameter`. -/
def SensorHidden.sendPointer (h : SensorHidden) (_flags : Nat) (reg : SensorReg) : SensorHidden :=
  { h with selected := some reg }

/-- What a read of the selected register does to the hidden state: reading CONFIG clears the latched alert, and "The source states
no side effect for any other register" (20_memory.md R29). A read without a preceding `send_pointer` "reads whatever register was
selected last" (70_reset_and_hazards.md R81). DESIGN CHOICE (log entry 16): when none was, the pointer is the unspecified power-on
value and the read has no result (none), the host model's fault on an unwritten value (U11). -/
def SensorHidden.afterRead (h : SensorHidden) : Option SensorHidden :=
  match h.selected with
  | none => none
  | some reg => some (if reg = .config then { h with alertLatched := some false } else h)

/-- A write-pointer-then-read transaction, the form of every register read (70_reset_and_hazards.md R81). -/
def SensorHidden.selectAndRead (h : SensorHidden) (flags : Nat) (reg : SensorReg) : Option SensorHidden :=
  (h.sendPointer flags reg).afterRead

/-- `reset_interrupts`: "performs a read of the CONFIG register and discards the result" (20_memory.md R29). -/
def SensorHidden.resetInterrupts (h : SensorHidden) (flags : Nat) : Option SensorHidden := h.selectAndRead flags .config

end Sys2Proof.Machine
end

