-- ==== Sys2Proof/Machine/Codec.lean ====
section
/-! DEFINITION. The block as the spec says a model may take it: "a total function from commands to responses with no state
argument" (10_state.md R10), written from the ranges of command words of 30_encoding.md R44 and from the CLOSED FORMS of R50, R52
and R59. No step uses it; claims hold the machine, which follows the operational text, against it. -/

namespace Sys2Proof.Machine

open Sys2Proof

/-- `{0b000, tempc[7], tempc[7:0], 0b0000}`, the closed form of ENCLIM (41_encode.md R59). -/
def limitClosedForm (tempc : Byte) : Half :=
  (0b000#3 ++ (tempc.extractLsb' 7 1 ++ (tempc ++ 0b0000#4 : BitVec (8 + 4)) : BitVec (1 + 12)) : BitVec (3 + 13))

/-- The response to a command word, by the ranges of 30_encoding.md R44: DEC16 `0x00000` to `0x0FFFF`, `sext_16(raw[12:0])`
(40_decode.md R50); DECC `0x10000` to `0x1FFFF`, `float_FLEN(signed(raw[12:0]) / 16)` (R51, R35); ENCLIM `0x20000` to `0x200FF`
(41_encode.md R59); the other format T words and `0x30000` to `0x3FFFF`, the two faults (60_exceptions.md R65). -/
def codecResponse (flen : Config.Flen) (w : CmdWord) : Response :=
  if w.toNat ≤ 0x0FFFF then .sixteenths ((w.extractLsb' 0 13).signExtend 16)
  else if w.toNat ≤ 0x1FFFF then .celsius (floatOfSixteenths flen (w.extractLsb' 0 13).toInt)
  else if w.toNat ≤ 0x200FF then .limit (limitClosedForm (w.extractLsb' 0 8))
  else if w.toNat ≤ 0x2FFFF then .fault .reservedField
  else .fault .reservedOp

end Sys2Proof.Machine
end

