-- ==== Sys2Proof/Safety.lean ====
section
/-! DEFINITION. What counts as a run that has gone wrong, and the invariants of the machine, in the terms the claims use. -/

namespace Sys2Proof.Machine

open Sys2Proof

/-- A response that is a `Fault` (30_encoding.md R43). -/
def Response.isFault : Response → Bool
  | .sixteenths _ => false
  | .celsius _ => false
  | .limit _ => false
  | .fault _ => true

/-- A run "has gone wrong" exactly when some response in it is a `Fault` (70_reset_and_hazards.md R83). -/
def State.goneWrong (s : State) : Bool := s.responses.any Response.isFault

/-- A reserved command word (30_encoding.md R44): `op = 0b11`, or `op = 0b10` with bits 15:8 not zero. -/
def reservedWord (w : CmdWord) : Bool :=
  (w.getLsbD 17 && w.getLsbD 16) || (w.getLsbD 17 && !w.getLsbD 16 && (w.extractLsb' 8 8 != 0#8))

/-- The ports carry the response `r`, as its row of the table of 30_encoding.md R43 says. A port marked "unspecified" there is not
mentioned. -/
def State.PortsCarry (s : State) : Response → Prop
  | .sixteenths v => s.res16O = v ∧ s.faultO = 0#1 ∧ s.fcodeO = 0b00#2
  | .celsius f => s.resfO = f ∧ s.faultO = 0#1 ∧ s.fcodeO = 0b00#2
  | .limit w => s.res16O = w ∧ s.faultO = 0#1 ∧ s.fcodeO = 0b00#2
  | .fault .reservedOp => s.faultO = 1#1 ∧ s.fcodeO = 0b01#2
  | .fault .reservedField => s.faultO = 1#1 ∧ s.fcodeO = 0b10#2

/-- FRAME and effect of answering a command. `t` is `s` after the response `r`: the run has that one response more, the ports
carry it (30_encoding.md R43), `resf_o` is FLEN wide, and FLEN, the word on `cmd_i` and the commands to come are as before. Only
the value of a port that the response does not name is left open (U1). -/
def State.Answers (s : State) (r : Response) (t : State) : Prop :=
  t.responses = s.responses ++ [r] ∧ t.PortsCarry r ∧ t.resfO.flen = s.flen ∧
    t.flen = s.flen ∧ t.cmdI = s.cmdI ∧ t.pending = s.pending

/-- INVARIANT. The outputs are the function of the command word that 30_encoding.md R43 gives, and `resf_o` is FLEN wide
(10_state.md R11, R22). -/
def State.PortsAnswerCommand (s : State) : Prop :=
  s.PortsCarry (codecResponse s.flen s.cmdI) ∧ s.resfO.flen = s.flen

/-- A response the block can give: SIXT16 holds only -4096..4095 (30_encoding.md R36); CELSIUS is an FLEN-wide pattern whose value
is a whole number of sixteenths in that range (R39, 40_decode.md R52); LIMIT16 has bits outside `0x1FF0` clear and bits 12 and 11
equal (41_encode.md R59). -/
def Response.WellFormed (flen : Config.Flen) : Response → Prop
  | .sixteenths v => -4096 ≤ v.toInt ∧ v.toInt ≤ 4095
  | .celsius f => f.flen = flen ∧ ∃ k : Int, -4096 ≤ k ∧ k ≤ 4095 ∧ f.value = some (mkRat k 16)
  | .limit w => w &&& ~~~0x1FF0#16 = 0#16 ∧ w.getLsbD 12 = w.getLsbD 11
  | .fault _ => True

/-- INVARIANT. Every response the host has collected is one the block can give. -/
def State.ResponsesWellFormed (s : State) : Prop :=
  ∀ r ∈ s.responses, r.WellFormed s.flen

end Sys2Proof.Machine
end

