-- ==== Sys2Proof/Certificates/Slice0/Obligations.lean ====
section
/-! DEFINITION. The statements about the block, each from the rule of spec/ its docstring names. `core.run n s` is `n` steps
(Host/Core.lean). -/

open Sys2Proof Sys2Proof.Machine

/-! ### Encoding -/

/-- Words written out from 95_test_vectors.md (S1, S2, S3, V4, P4) decode to the commands they stand for. -/
def Obligations.VectorWordsDecode : Prop :=
  decode 0x00050#18 = .dec16 0x0050#16 ∧ decode 0x0FFFF#18 = .dec16 0xFFFF#16 ∧
  decode 0x11E78#18 = .decc 0x1E78#16 ∧ decode 0x1FFFF#18 = .decc 0xFFFF#16 ∧
  decode 0x200EC#18 = .enclim 0xEC#8 ∧ decode 0x200FF#18 = .enclim 0xFF#8 ∧
  decode 0x20100#18 = .reservedField 0x01#8 0x00#8 ∧ decode 0x2FFEC#18 = .reservedField 0xFF#8 0xEC#8 ∧
  decode 0x30050#18 = .reservedOp 0x0050#16 ∧ decode 0x3FFFF#18 = .reservedOp 0xFFFF#16

/-- 30_encoding.md R41, R42, R48; D3 "decoding is injective (one word per command)": decoding an encoded well-formed command gives it
back, the pseudo-operation as what it expands to. -/
def Obligations.DecodeOfEncodeIsTheCommand : Prop :=
  ∀ i : Instr, i.WellFormed → decode (encode i) = i.expand

/-- 30_encoding.md R44, D3: every word decodes to a well-formed command, and that command's word is the word: no bit is dropped. -/
def Obligations.EncodeOfDecodeIsTheWord : Prop :=
  ∀ w : CmdWord, (decode w).WellFormed ∧ encode (decode w) = w

/-- 30_encoding.md R42, R44: the ranges of command words, with every operand bit at its place. -/
def Obligations.CommandWordRanges : Prop :=
  ∀ w : CmdWord,
    (w.toNat ≤ 0x0FFFF → decode w = .dec16 (BitVec.ofNat 16 w.toNat)) ∧
    (0x10000 ≤ w.toNat → w.toNat ≤ 0x1FFFF → decode w = .decc (BitVec.ofNat 16 w.toNat)) ∧
    (0x20000 ≤ w.toNat → w.toNat ≤ 0x200FF → decode w = .enclim (BitVec.ofNat 8 w.toNat)) ∧
    (0x20100 ≤ w.toNat → w.toNat ≤ 0x2FFFF →
      decode w = .reservedField (BitVec.ofNat 8 (w.toNat / 256)) (BitVec.ofNat 8 w.toNat)) ∧
    (0x30000 ≤ w.toNat → decode w = .reservedOp (BitVec.ofNat 16 w.toNat))

/-- opcode_table.json: a word decodes to a row only if its fixed bits are the row's, and two well-formed commands share a word only
when they are one command and its pseudo-operation. -/
def Obligations.TableRowsDoNotOverlap : Prop :=
  (∀ w : CmdWord, w &&& rowMask (decode w) = rowMatch (decode w)) ∧
  (∀ i j : Instr, i.WellFormed → j.WellFormed → encode i = encode j → i.expand = j.expand)

/-- 30_encoding.md R47, R48: what each line of the assembler's syntax assembles to, and which lines are assembly errors. -/
def Obligations.AssemblerEncodesOrRefuses : Prop :=
  (∀ n : Nat, n ≤ 0xFFFF →
    assembleProgram [.dec16 (.hex n), .decc (.hex n)] =
      .ok [(0b00#2 ++ BitVec.ofNat 16 n : BitVec (2 + 16)), (0b01#2 ++ BitVec.ofNat 16 n : BitVec (2 + 16))]) ∧
  (∀ n : Int, -128 ≤ n → n ≤ 127 → ∃ t : Byte, t.toInt = n ∧
    assembleProgram [.enclim (.decimal n), .setlim (.decimal n)] =
      .ok [(0b10#2 ++ (0x00#8 ++ t : BitVec (8 + 8)) : BitVec (2 + 16)),
        (0b10#2 ++ (0x00#8 ++ t : BitVec (8 + 8)) : BitVec (2 + 16))]) ∧
  (∀ n : Nat, n ≤ 0xFF →
    assembleProgram [.enclim (.hex n), .setlim (.hex n)] =
      .ok [(0b10#2 ++ (0x00#8 ++ BitVec.ofNat 8 n : BitVec (8 + 8)) : BitVec (2 + 16)),
        (0b10#2 ++ (0x00#8 ++ BitVec.ofNat 8 n : BitVec (8 + 8)) : BitVec (2 + 16))]) ∧
  (∀ n : Nat, 0xFFFF < n →
    assembleLine (.dec16 (.hex n)) = .error .rawTooWide ∧ assembleLine (.decc (.hex n)) = .error .rawTooWide) ∧
  (∀ n : Int, n < -128 ∨ 127 < n →
    assembleLine (.enclim (.decimal n)) = .error .tempcOutOfRange ∧
    assembleLine (.setlim (.decimal n)) = .error .tempcOutOfRange) ∧
  (∀ (num : Int) (den : Nat),
    assembleLine (.enclim (.fractional num den)) = .error .tempcFractional ∧
    assembleLine (.setlim (.fractional num den)) = .error .tempcFractional)

/-! ### The step -/

/-- 10_state.md R12, 30_encoding.md R42: a step presents the host's next command word on `cmd_i` and runs the command it decodes to. -/
def Obligations.StepRunsTheDecodedCommand : Prop :=
  ∀ (s : State) (w : CmdWord) (rest : List CmdWord), s.pending = w :: rest →
    step s = exec (decode w) { s with cmdI := w, pending := rest }

/-- The model's choice (log entry 4): with no command pending the run has ended (70_reset_and_hazards.md R83) and a step leaves the
state as it is. -/
def Obligations.StepWithNothingPendingKeepsTheState : Prop :=
  ∀ s : State, s.pending = [] → step s = .next s

/-- 10_state.md R10, 30_encoding.md R43: every command, reserved or not, gives a next state with exactly one response more, and leaves
FLEN, `cmd_i`, the commands to come and the earlier responses as they were. -/
def Obligations.EveryCommandGivesOneResponse : Prop :=
  ∀ (i : Instr) (s : State), ∃ (t : State) (r : Response), exec i s = .next t ∧
    t.responses = s.responses ++ [r] ∧ t.flen = s.flen ∧ t.cmdI = s.cmdI ∧ t.pending = s.pending

/-- 30_encoding.md R43: the response to a command word and what the ports carry, against the codec by the ranges of R44 and the closed
forms of 40_decode.md R50 to R52 and 41_encode.md R59. -/
def Obligations.StepAnswersTheCodecResponse : Prop :=
  ∀ (s : State) (w : CmdWord) (rest : List CmdWord), s.pending = w :: rest →
    ∃ t : State, step s = .next t ∧
      ({ s with cmdI := w, pending := rest } : State).Answers (codecResponse s.flen w) t

/-- 10_state.md R22, R78, R79: from reset the first command, whichever it is, is answered as any later one is. That FLEN is 32 at
reset is the default of 00_scope.md R7, held in State as log entry 3 says; that the response is the only one is the model's choice of
an empty run at reset (log entry 4). -/
def Obligations.FirstCommandAfterReset : Prop :=
  ∀ w : CmdWord, ∃ t : State, step (State.reset.withFetchWord 18 w.toNat) = .next t ∧
    t.responses = [codecResponse .binary32 w] ∧ t.cmdI = w ∧ t.PortsCarry (codecResponse .binary32 w)

/-- 00_scope.md R7 gives FLEN's default; that the host has issued and collected nothing is the model's choice (log entry 4). -/
def Obligations.ResetHasDefaultWidthAndEmptyRun : Prop :=
  State.reset.flen = .binary32 ∧ State.reset.pending = [] ∧ State.reset.responses = []

/-- The outputs at reset answer the word on `cmd_i`; that this word is 0x00000 is the model's choice (log entry 2). -/
def Obligations.ResetMeetsTheInvariants : Prop :=
  State.reset.PortsAnswerCommand ∧ State.reset.ResponsesWellFormed

/-- INVARIANT. 10_state.md R11: the outputs stay a function of `cmd_i`, the one 30_encoding.md R43 gives, and `resf_o` FLEN wide. -/
def Obligations.StepKeepsPortsAnsweringTheCommand : Prop :=
  ∀ s t : State, s.PortsAnswerCommand → step s = .next t → t.PortsAnswerCommand

/-- INVARIANT. 30_encoding.md R36, R39, 41_encode.md R59: every response collected is a SIXT16 word, an FLEN-wide pattern of a whole
number of sixteenths, or a LIMIT16 word an encoder gives. -/
def Obligations.StepKeepsResponsesWellFormed : Prop :=
  ∀ s t : State, s.ResponsesWellFormed → step s = .next t → t.ResponsesWellFormed

/-! ### DEC16 -/

/-- 40_decode.md R50. -/
def Obligations.Dec16SignExtendsTheField : Prop :=
  ∀ (raw : Half) (s : State),
    encode (.dec16 raw) = (0b00#2 ++ raw : BitVec (2 + 16)) ∧
    ∃ (t : State) (v : Half), exec (.dec16 raw) s = .next t ∧ s.Answers (.sixteenths v) t ∧
      v = (if raw.getLsbD 12 = true then raw ||| 0xF000#16 else raw &&& 0x0FFF#16) ∧
      v = (raw.extractLsb' 0 13).signExtend 16 ∧
      v.toInt = ((raw.extractLsb' 0 12).toNat : Int) - 4096 * ((raw.extractLsb' 12 1).toNat : Int)

/-- 40_decode.md R53. -/
def Obligations.DecoderIgnoresHighBits : Prop :=
  (∀ raw : Half, raw.getLsbD 12 = false → raw &&& 0x0FFF#16 = raw &&& 0x1FFF#16) ∧
  (∀ raw : Half, raw.getLsbD 12 = true →
    (raw ||| 0xF000#16).extractLsb' 12 4 = 0b1111#4 ∧ (raw ||| 0xF000#16).extractLsb' 0 13 = raw.extractLsb' 0 13) ∧
  (∀ raw : Half, (sixteenthsOf raw).extractLsb' 12 4 = (raw.extractLsb' 12 1).signExtend 4 ∧
    (sixteenthsOf raw).extractLsb' 0 12 = raw.extractLsb' 0 12 ∧
    sixteenthsOf raw = (raw.extractLsb' 0 13).signExtend 16) ∧
  (∀ (a b : Half) (s : State), a.extractLsb' 0 13 = b.extractLsb' 0 13 →
    exec (.dec16 a) s = exec (.dec16 b) s ∧ exec (.decc a) s = exec (.decc b) s)

/-- 40_decode.md R54. -/
def Obligations.Dec16IsSignCorrectAndBijective : Prop :=
  (∀ r : Half, r.getLsbD 12 = false → 0 ≤ (sixteenthsOf r).toInt ∧ (sixteenthsOf r).toInt ≤ 4095) ∧
  (∀ r : Half, r.getLsbD 12 = true → -4096 ≤ (sixteenthsOf r).toInt ∧ (sixteenthsOf r).toInt ≤ -1) ∧
  (∀ a b : Half, sixteenthsOf a = sixteenthsOf b ↔ a.extractLsb' 0 13 = b.extractLsb' 0 13) ∧
  (∀ k : Int, -4096 ≤ k → k ≤ 4095 → ∃ r : Half, (sixteenthsOf r).toInt = k) ∧
  (∀ a b : Half, (a.extractLsb' 0 13).toInt ≤ (b.extractLsb' 0 13).toInt →
    (sixteenthsOf a).toInt ≤ (sixteenthsOf b).toInt)

/-- 30_encoding.md R36. -/
def Obligations.SixteenthsFormat : Prop :=
  (∀ raw : Half, (sixteenthsOf raw).extractLsb' 12 4 = (if raw.getLsbD 12 = true then 0b1111#4 else 0b0000#4) ∧
    (sixteenthsOf raw).extractLsb' 0 12 = raw.extractLsb' 0 12) ∧
  (∀ v : Half, (∃ raw : Half, sixteenthsOf raw = v) ↔ -4096 ≤ v.toInt ∧ v.toInt ≤ 4095) ∧
  (∀ v : Half, (∃ raw : Half, sixteenthsOf raw = v) ↔
    v.getLsbD 15 = v.getLsbD 12 ∧ v.getLsbD 14 = v.getLsbD 12 ∧ v.getLsbD 13 = v.getLsbD 12)

/-! ### DECC -/

/-- 40_decode.md R51: the value is exact, in both widths, zero is +0.0, and bits 15:13 of the operand do not matter. A pattern with a `value` is a normal number or +0.0, so
it is no infinity, no NaN, no subnormal and not -0.0. -/
def Obligations.DeccIsExactDivisionBySixteen : Prop :=
  ∀ (raw : Half) (s : State),
    encode (.decc raw) = (0b01#2 ++ raw : BitVec (2 + 16)) ∧
    ∃ (t : State) (f : Celsius), exec (.decc raw) s = .next t ∧ s.Answers (.celsius f) t ∧ f.flen = s.flen ∧
      f.value = some (mkRat (sixteenthsOf raw).toInt 16) ∧
      f = floatOfSixteenths s.flen (raw.extractLsb' 0 13).toInt ∧
      (sixteenthsOf raw = 0x0000#16 → f = .binary32 0#32 ∨ f = .binary64 0#64)

/-- 40_decode.md R52: the result is exact in either width, and its bit pattern is the rule's, field by field. `e` is the index of the highest set bit of `|s|`. -/
def Obligations.DeccBitPattern : Prop :=
  ∀ (raw : Half) (st : State), ∃ (t : State) (f : Celsius),
    exec (.decc raw) st = .next t ∧ t.resfO = f ∧ f.flen = st.flen ∧
    -4096 ≤ (sixteenthsOf raw).toInt ∧ (sixteenthsOf raw).toInt ≤ 4095 ∧
    f.value = some (mkRat (sixteenthsOf raw).toInt 16) ∧
    ((sixteenthsOf raw).toInt = 0 → f = .binary32 0#32 ∨ f = .binary64 0#64) ∧
    (∀ e : Nat, 2 ^ e ≤ (sixteenthsOf raw).toInt.natAbs → (sixteenthsOf raw).toInt.natAbs < 2 ^ (e + 1) →
      e ≤ 12 ∧ f.sign = decide ((sixteenthsOf raw).toInt < 0) ∧
      (st.flen = .binary32 → f.exponent = 123 + e ∧
        f.fraction = ((sixteenthsOf raw).toInt.natAbs - 2 ^ e) * 2 ^ (23 - e)) ∧
      (st.flen = .binary64 → f.exponent = 1019 + e ∧
        f.fraction = ((sixteenthsOf raw).toInt.natAbs - 2 ^ e) * 2 ^ (52 - e)))

/-! ### ENCLIM and SETLIM -/

/-- 41_encode.md R57. A format T word with `rsv` not zero is not an ENCLIM command. -/
def Obligations.EnclimShiftsAndMasks : Prop :=
  ∀ (tempc : Byte) (s : State),
    encode (.enclim tempc) = (0b10#2 ++ (0x00#8 ++ tempc : BitVec (8 + 8)) : BitVec (2 + 16)) ∧
    (∀ rsv : Byte, rsv ≠ 0x00#8 →
      decode (0b10#2 ++ (rsv ++ tempc : BitVec (8 + 8)) : BitVec (2 + 16)) = .reservedField rsv tempc) ∧
    ∃ (t : State) (w : Half), exec (.enclim tempc) s = .next t ∧ s.Answers (.limit w) t ∧
      w = (if tempc.getLsbD 7 = true then (tempc.signExtend 16 <<< 4) ||| 0x1000#16
        else (tempc.signExtend 16 <<< 4) &&& ~~~0x1000#16) &&& 0x1FFC#16 ∧
      w = (0b000#3 ++ (tempc.extractLsb' 7 1 ++ (tempc ++ 0b0000#4 : BitVec (8 + 4)) : BitVec (1 + 12)) : BitVec (3 + 13)) ∧
      w.toNat = 16 * tempc.toNat + 4096 * (tempc.extractLsb' 7 1).toNat ∧
      (w.extractLsb' 0 13).toInt = 16 * tempc.toInt

/-- 41_encode.md R58. -/
def Obligations.SetlimIsEnclim : Prop :=
  ∀ (tempc : Byte) (s : State),
    encode (.setlim tempc) = encode (.enclim tempc) ∧ exec (.setlim tempc) s = exec (.enclim tempc) s ∧
    ∃ t : State, exec (.setlim tempc) s = .next t ∧ s.Answers (.limit (limitOf tempc)) t

/-- 41_encode.md R59. -/
def Obligations.LimitClosedForm : Prop :=
  ∀ (tempc : Byte) (s : State), ∃ (t : State) (w : Half), exec (.enclim tempc) s = .next t ∧ t.res16O = w ∧
    w = (0b000#3 ++ (tempc.extractLsb' 7 1 ++ (tempc ++ 0b0000#4 : BitVec (8 + 4)) : BitVec (1 + 12)) : BitVec (3 + 13)) ∧
    w &&& ~~~0x1FFC#16 = 0#16 ∧ w &&& ~~~0x1FF0#16 = 0#16 ∧
    w.getLsbD 15 = false ∧ 0 ≤ w.toInt ∧ w.toInt = (w.toNat : Int) ∧
    w.getLsbD 12 = w.getLsbD 11 ∧ w.getLsbD 12 = tempc.getLsbD 7 ∧
    w.extractLsb' 4 8 = tempc ∧ (∀ other : Byte, limitOf other = w → other = tempc)

/-- 41_encode.md R60: decoding an encoded limit is exact, and the converse holds for encoder results only. -/
def Obligations.EncodeThenDecodeIsExact : Prop :=
  (∀ (c : Byte) (flen : Config.Flen),
    sixteenthsOf (limitOf c) = c.signExtend 16 <<< 4 ∧
    (sixteenthsOf (limitOf c)).toInt = 16 * c.toInt ∧
    (celsiusOf flen (limitOf c)).value = some (c.toInt : Rat)) ∧
  (∀ raw : Half, limitOf ((sixteenthsOf raw).extractLsb' 4 8) = raw ↔
    raw.extractLsb' 13 3 = 0#3 ∧ raw.extractLsb' 0 4 = 0#4 ∧ raw.getLsbD 12 = raw.getLsbD 11) ∧
  (∀ raw : Half, (∃ c : Byte, limitOf c = raw) ↔
    raw.extractLsb' 13 3 = 0#3 ∧ raw.extractLsb' 0 4 = 0#4 ∧ raw.getLsbD 12 = raw.getLsbD 11)

/-- 41_encode.md R61: nothing saturates, to -40..125 or to any other range; every operand is representable and keeps its value. -/
def Obligations.EncoderDoesNotSaturate : Prop :=
  ∀ (k : Int) (s : State), -128 ≤ k → k ≤ 127 → ∃ (t : State) (w : Half),
    exec (.enclim (BitVec.ofInt 8 k)) s = .next t ∧ s.Answers (.limit w) t ∧ (w.extractLsb' 0 13).toInt = 16 * k ∧
    (k = 127 → w = 0x07F0#16) ∧ (k = -128 → w = 0x1800#16)

/-- 41_encode.md R62: the shift multiplies by 16, and neither zero extension nor a wider intermediate changes the result. -/
def Obligations.WideningDoesNotMatter : Prop :=
  ∀ tempc : Byte,
    (tempc.signExtend 16 <<< 4).toInt = 16 * tempc.toInt ∧
    limitOfWidened (tempc.getLsbD 7) (tempc.setWidth 16) = limitOf tempc ∧
    ∀ n : Nat, 16 ≤ n →
      ((if tempc.getLsbD 7 = true then (tempc.signExtend n <<< 4) ||| 0x1000#n
        else (tempc.signExtend n <<< 4) &&& ~~~0x1000#n) &&& 0x1FFC#n).setWidth 16 = limitOf tempc

/-! ### Faults -/

/-- 30_encoding.md R44: which words fault, and with what, whatever their other bits; every other word is answered as the defined
command of its range. -/
def Obligations.ReservedWordsFault : Prop :=
  ∀ (s : State) (w : CmdWord) (rest : List CmdWord), s.pending = w :: rest →
    ∃ (t : State) (r : Response), step s = .next t ∧ t.responses = s.responses ++ [r] ∧
      (r = .fault .reservedOp ↔ w.extractLsb' 16 2 = 0b11#2) ∧
      (r = .fault .reservedField ↔ w.extractLsb' 16 2 = 0b10#2 ∧ w.extractLsb' 8 8 ≠ 0x00#8) ∧
      (r = .fault .reservedOp ↔ 0x30000 ≤ w.toNat) ∧
      (r = .fault .reservedField ↔ 0x20100 ≤ w.toNat ∧ w.toNat ≤ 0x2FFFF) ∧
      ((∃ v : Half, r = .sixteenths v) ↔ w.toNat ≤ 0x0FFFF) ∧
      ((∃ f : Celsius, r = .celsius f) ↔ 0x10000 ≤ w.toNat ∧ w.toNat ≤ 0x1FFFF) ∧
      ((∃ v : Half, r = .limit v) ↔ 0x20000 ≤ w.toNat ∧ w.toNat ≤ 0x200FF)

/-- 60_exceptions.md R65, R68: `fault_o` and `fcode_o` for every command word; `0b11` is never produced. -/
def Obligations.FaultCodesOfEveryWord : Prop :=
  ∀ (s : State) (w : CmdWord) (rest : List CmdWord), s.pending = w :: rest →
    ∃ t : State, step s = .next t ∧
      (t.faultO = 1#1 ↔ reservedWord w = true) ∧ (t.fcodeO = 0b00#2 ↔ t.faultO = 0#1) ∧
      (t.fcodeO = 0b01#2 ↔ w.extractLsb' 16 2 = 0b11#2) ∧
      (t.fcodeO = 0b10#2 ↔ w.extractLsb' 16 2 = 0b10#2 ∧ w.extractLsb' 8 8 ≠ 0x00#8) ∧
      (t.fcodeO = 0b01#2 ↔ t.responses = s.responses ++ [.fault .reservedOp]) ∧
      (t.fcodeO = 0b10#2 ↔ t.responses = s.responses ++ [.fault .reservedField]) ∧
      t.fcodeO ≠ 0b11#2

/-- 60_exceptions.md R66: a reserved command returns `Fault(code)` and nothing else happens. -/
def Obligations.ReservedCommandsAnswerTheirFault : Prop :=
  (∀ (x : Half) (s : State), ∃ t : State, exec (.reservedOp x) s = .next t ∧
    s.Answers (.fault .reservedOp) t ∧ t.faultO = 1#1 ∧ t.fcodeO = 0b01#2) ∧
  (∀ (rsv x : Byte) (s : State), ∃ t : State, exec (.reservedField rsv x) s = .next t ∧
    s.Answers (.fault .reservedField) t ∧ t.faultO = 1#1 ∧ t.fcodeO = 0b10#2)

/-- 60_exceptions.md R64: the defined operations raise nothing, on any operand. -/
def Obligations.DefinedOperationsRaiseNothing : Prop :=
  ∀ (raw : Half) (tempc : Byte) (s : State) (i : Instr),
    i ∈ [Instr.dec16 raw, .decc raw, .enclim tempc, .setlim tempc] →
    ∃ t : State, exec i s = .next t ∧ t.faultO = 0#1 ∧ t.fcodeO = 0b00#2 ∧ t.goneWrong = s.goneWrong

/-- 60_exceptions.md R67: a faulting command leaves no trace in the answer to the next one. -/
def Obligations.FaultLeavesNoTrace : Prop :=
  ∀ (s : State) (bad w : CmdWord) (rest : List CmdWord), reservedWord bad = true →
    ∃ (t u : State) (code : FaultCode) (r : Response),
      core.run 2 ({ s with pending := bad :: w :: rest } : State) = .next t ∧
      step { s with pending := w :: rest } = .next u ∧
      t.responses = s.responses ++ [.fault code, r] ∧ u.responses = s.responses ++ [r] ∧
      t.PortsCarry r ∧ u.PortsCarry r ∧ t.flen = u.flen ∧ t.cmdI = u.cmdI ∧ t.pending = u.pending

/-! ### Runs -/

/-- 70_reset_and_hazards.md R83: the outcome of a run is the sequence of responses, one per command, in the same order; the block
never hangs; a run has gone wrong exactly when some response in it is a `Fault`. -/
def Obligations.RunAnswersEveryCommandInOrder : Prop :=
  ∀ s : State, ∃ t : State, core.run s.pending.length s = .next t ∧ t.pending = [] ∧ t.flen = s.flen ∧
    t.responses = s.responses ++ s.pending.map (codecResponse s.flen) ∧
    (t.goneWrong = true ↔ ∃ code : FaultCode, .fault code ∈ t.responses)

/-- 70_reset_and_hazards.md R83 with 30_encoding.md R44: a run that has collected nothing yet goes wrong exactly when a word that the
host has chosen is reserved. -/
def Obligations.RunGoesWrongOnReservedWordsOnly : Prop :=
  ∀ s : State, s.responses = [] → ∃ t : State, core.run s.pending.length s = .next t ∧
    (t.goneWrong = true ↔ ∃ w ∈ s.pending, reservedWord w = true)

/-- 10_state.md R10: no operation reads anything but its own operand. Two states of one FLEN that present the same word get the same
response and carry it on their ports, whatever came before. -/
def Obligations.ResponseDependsOnTheCommandAlone : Prop :=
  ∀ (s s' : State) (w : CmdWord) (rest rest' : List CmdWord),
    s.flen = s'.flen → s.pending = w :: rest → s'.pending = w :: rest' →
    ∃ (t t' : State) (r : Response), step s = .next t ∧ step s' = .next t' ∧
      t.responses = s.responses ++ [r] ∧ t'.responses = s'.responses ++ [r] ∧ t.PortsCarry r ∧ t'.PortsCarry r

/-- 20_memory.md R31, 70_reset_and_hazards.md R80: the order of the commands changes no response. Whatever order the host issues the
same commands in, each is answered as before. -/
def Obligations.OrderChangesNoResponse : Prop :=
  ∀ (s : State) (ws : List CmdWord), s.responses = [] → ws.Perm s.pending →
    ∃ t u : State, core.run s.pending.length s = .next t ∧
      core.run ws.length ({ s with pending := ws } : State) = .next u ∧
      (ws.zip u.responses).Perm (s.pending.zip t.responses)

/-- 60_exceptions.md R74: several hosts that share the block cannot interfere. Of any interleaving of tagged commands, the responses
to one host's are those it would get alone. -/
def Obligations.SharedBlockKeepsHostsApart : Prop :=
  ∀ (s : State) (tagged : List (Nat × CmdWord)) (host : Nat), s.responses = [] →
    ∃ t u : State,
      core.run tagged.length ({ s with pending := tagged.map Prod.snd } : State) = .next t ∧
      core.run (tagged.filter (fun c => c.1 == host)).length
        ({ s with pending := (tagged.filter (fun c => c.1 == host)).map Prod.snd } : State) = .next u ∧
      ((tagged.zip t.responses).filter (fun c => c.1.1 == host)).map Prod.snd = u.responses

/-- 41_encode.md R60 with 95_test_vectors.md P1, for every limit: set it, decode the word to sixteenths and to Celsius. -/
def Obligations.SetLimitAndReadBack : Prop :=
  ∀ (c : Byte) (s : State), ∃ (t : State) (w : Half) (f : Celsius),
    core.run 3 ({ s with pending := [encode (.setlim c), encode (.dec16 w), encode (.decc w)] } : State) = .next t ∧
    t.responses = s.responses ++ [.limit w, .sixteenths (c.signExtend 16 <<< 4), .celsius f] ∧
    f.value = some (c.toInt : Rat) ∧ t.pending = []

/-! ### The data on its way into and out of the block (environment) -/

/-- 20_memory.md R24: big-endian reads; the field's sign bit is bit 4 of the first byte and its fraction bits are bits 3:0 of the
second. -/
def Obligations.RawWordsArriveBigEndian : Prop :=
  ∀ (b0 b1 : Byte), (rawOfBytes b0 b1).extractLsb' 8 8 = b0 ∧ (rawOfBytes b0 b1).extractLsb' 0 8 = b1 ∧
    (rawOfBytes b0 b1).getLsbD 12 = b0.getLsbD 4 ∧ (rawOfBytes b0 b1).extractLsb' 0 4 = b1.extractLsb' 0 4

/-- 20_memory.md R25, 10_state.md R16, R17: which registers have a 16-bit and which an 8-bit write, and the frames. The value sent is
the host's under the register's mask; with the mask on the high byte kept, its bit 15 is always sent as 0, and every other bit as it
is; with that mask removed (U6), all of it. No reserved bit of CONFIG is ever sent. -/
def Obligations.WriteFrames : Prop :=
  ∀ (mask : HighByteMask) (reg : SensorReg) (v : Half) (b : Byte),
    ((writeFrame16 mask reg v).isSome = true ↔ reg ∈ [SensorReg.config, .tUpper, .tLower, .tCrit]) ∧
    ((writeFrame8 reg b).isSome = true ↔ reg = .deviceIdOrResolution) ∧
    (∀ frame : List Byte, writeFrame8 reg b = some frame → frame = [0x07#8, b]) ∧
    (∀ frame : List Byte, writeFrame16 mask reg v = some frame → ∃ hi lo : Byte,
      frame = [reg.pointer, hi, lo] ∧
      (reg = .config → (hi ++ lo : BitVec (8 + 8)) = v &&& 0x01FF#16) ∧
      (reg ≠ .config → (hi ++ lo : BitVec (8 + 8)) = v &&& 0x1FFF#16) ∧
      (hi ++ lo : BitVec (8 + 8)) = reg.toBus v &&& (if mask = .kept then 0x7FFF#16 else 0xFFFF#16) ∧
      (mask = .kept → hi.getLsbD 7 = false))

/-- 20_memory.md R27: the host's write path changes no encoder result, whether the mask on the high byte is kept or removed (U6); the
word the sensor receives is the word ENCLIM produced. -/
def Obligations.WritePathKeepsEncoderResults : Prop :=
  ∀ (mask : HighByteMask) (u l c : Byte) (d : Device),
    limitOf u &&& 0x1FFF#16 = limitOf u ∧ limitOf u &&& 0x7FFF#16 = limitOf u ∧
    (((d.setUpper (limitOf u)).setLower (limitOf l)).setCrit (limitOf c)).limitFrames mask =
      some [[0x02#8, (limitOf u).extractLsb' 8 8, (limitOf u).extractLsb' 0 8],
        [0x03#8, (limitOf l).extractLsb' 8 8, (limitOf l).extractLsb' 0 8],
        [0x04#8, (limitOf c).extractLsb' 8 8, (limitOf c).extractLsb' 0 8]]

/-- 20_memory.md R29, 60_exceptions.md R70: reading CONFIG clears the latched alert, and of the reads it is the only one that does.
That `flags` does not matter is the model's choice (log entry 15). -/
def Obligations.OnlyConfigReadClearsTheAlert : Prop :=
  ∀ (h : SensorHidden) (flags : Nat) (reg : SensorReg),
    h.resetInterrupts flags = some { selected := some .config, alertLatched := some false } ∧
    h.selectAndRead flags reg =
      some { selected := some reg, alertLatched := if reg = .config then some false else h.alertLatched }

/-- 10_state.md R19, 70_reset_and_hazards.md R81: the sensor remembers the last pointer, so a read without a new one reads that
register again. That the selection is the same for every `flags` is the model's choice (log entry 15), and so is that a read before
the first pointer has no result (log entry 16). -/
def Obligations.ReadsGoToTheRegisterSelectedLast : Prop :=
  SensorHidden.powerOn.afterRead = none ∧
  ∀ (h : SensorHidden) (flags : Nat) (first reg : SensorReg),
    (((h.sendPointer flags first).sendPointer flags reg).afterRead.bind SensorHidden.afterRead) = h.selectAndRead flags reg

/-- 10_state.md R17: the register map, pointer by pointer: which register, the widths of its reads and its writes, the mask the host
applies on a write, the format, and the host operations that read and write it; and nothing at any other pointer. -/
def Obligations.RegisterMap : Prop :=
  (∀ p : Byte, (SensorReg.ofPointer p).map
      (fun r => (r, r.readWidths, r.writeWidth, r.writeMask, r.format, r.readBy, r.writtenBy)) =
    if p = 0x01#8 then some (.config, [16], some 16, some 0x01FF#16, .bitField,
      [.loadDevice, .resetInterrupts, .applyConfiguration], [.applyConfiguration])
    else if p = 0x02#8 then some (.tUpper, [16], some 16, some 0x1FFF#16, .limit16, [], [.applyTemperatureConfiguration])
    else if p = 0x03#8 then some (.tLower, [16], some 16, some 0x1FFF#16, .limit16, [], [.applyTemperatureConfiguration])
    else if p = 0x04#8 then some (.tCrit, [16], some 16, some 0x1FFF#16, .limit16, [], [.applyTemperatureConfiguration])
    else if p = 0x05#8 then some (.ambient, [16], none, none, .raw16, [.readTemperature], [])
    else if p = 0x06#8 then some (.manufacturerId, [16], none, none, .plain16, [.loadDevice], [])
    else if p = 0x07#8 then some (.deviceIdOrResolution, [16, 8], some 8, none, .plainOrResolution,
      [.loadDevice], [.applyConfiguration])
    else none) ∧
  (∀ reg : SensorReg, SensorReg.ofPointer reg.pointer = some reg)

/-- 10_state.md R22: a fresh record has its address and what the sensor returned, and its limits and its temperature are unwritten. That
no frame at all is given while one of the three limits is unwritten is the model's all-or-nothing choice (log entry 17): U11 says only
that reading the unwritten field faults, so the frames before it could already be out. How the resolution word gives a step is an
argument, also log entry 17. -/
def Obligations.FreshDeviceIsUnwritten : Prop :=
  ∀ (stepOf : Half → Resolution) (address : Nat) (m i c r u l k : Half) (mask : HighByteMask),
    (Device.load stepOf address m i c r).address = address ∧
    (Device.load stepOf address m i c r).manufacturerId = m ∧ (Device.load stepOf address m i c r).deviceId = i ∧
    (Device.load stepOf address m i c r).configuration = c ∧ (Device.load stepOf address m i c r).resolution = stepOf r ∧
    (Device.load stepOf address m i c r).tUpper = none ∧ (Device.load stepOf address m i c r).tLower = none ∧
    (Device.load stepOf address m i c r).tCrit = none ∧ (Device.load stepOf address m i c r).temperature = none ∧
    (Device.load stepOf address m i c r).limitFrames mask = none ∧
    (((Device.load stepOf address m i c r).setUpper u).setLower l).limitFrames mask = none ∧
    ((((Device.load stepOf address m i c r).setUpper u).setLower l).setCrit k).limitFrames mask ≠ none
end

