-- ==== Sys2Proof/Laws/Decode.lean ====
section
/-! SUPPORT. The fields of a command word that is put together from its fields (30_encoding.md R41), and the decoder on each
pattern of `op`. -/

namespace Sys2Proof

@[simp] theorem opField_append (op : BitVec 2) (x : Half) : opField (op ++ x : BitVec (2 + 16)) = op := by
  ext i hi
  simp only [opField, BitVec.getElem_extractLsb', BitVec.getLsbD_append]
  interval_cases i <;> simp

@[simp] theorem rawField_append (op : BitVec 2) (x : Half) : rawField (op ++ x : BitVec (2 + 16)) = x := by
  ext i hi
  simp only [rawField, BitVec.getElem_extractLsb', BitVec.getLsbD_append]
  interval_cases i <;> simp

@[simp] theorem rsvField_append (op : BitVec 2) (rsv x : Byte) :
    rsvField (op ++ (rsv ++ x : BitVec (8 + 8)) : BitVec (2 + 16)) = rsv := by
  ext i hi
  simp only [rsvField, BitVec.getElem_extractLsb', BitVec.getLsbD_append]
  interval_cases i <;> simp

@[simp] theorem tempcField_append (op : BitVec 2) (rsv x : Byte) :
    tempcField (op ++ (rsv ++ x : BitVec (8 + 8)) : BitVec (2 + 16)) = x := by
  ext i hi
  simp only [tempcField, BitVec.getElem_extractLsb', BitVec.getLsbD_append]
  interval_cases i <;> simp

theorem decode_of_op_dec16 {w : CmdWord} (h : opField w = 0b00#2) : decode w = .dec16 (rawField w) := by
  simp [decode, h]

theorem decode_of_op_decc {w : CmdWord} (h : opField w = 0b01#2) : decode w = .decc (rawField w) := by
  simp [decode, h]

theorem decode_of_format_t {w : CmdWord} (h : opField w = 0b10#2) :
    decode w =
      if rsvField w = 0x00#8 then .enclim (tempcField w) else .reservedField (rsvField w) (tempcField w) := by
  simp [decode, h]

theorem decode_of_op_reserved {w : CmdWord} (h : opField w = 0b11#2) : decode w = .reservedOp (rawField w) := by
  simp [decode, h]

end Sys2Proof
end

