-- ==== Sys2Proof/Laws/State.lean ====
section
/-! SUPPORT. One lemma per field per update of State, so that no later proof unfolds a record update. -/

namespace Sys2Proof.Machine

open Sys2Proof

variable (s : State) (r : Response) (w : CmdWord) (ws : List CmdWord)

@[simp] theorem answer_flen : (s.answer r).flen = s.flen := rfl
@[simp] theorem answer_cmdI : (s.answer r).cmdI = s.cmdI := rfl
@[simp] theorem answer_res16O : (s.answer r).res16O = r.res16 s.cmdI := rfl
@[simp] theorem answer_resfO : (s.answer r).resfO = r.resf s.flen s.cmdI := rfl
@[simp] theorem answer_faultO : (s.answer r).faultO = r.faultFlag := rfl
@[simp] theorem answer_fcodeO : (s.answer r).fcodeO = r.faultBits := rfl
@[simp] theorem answer_pending : (s.answer r).pending = s.pending := rfl
@[simp] theorem answer_responses : (s.answer r).responses = s.responses ++ [r] := rfl

@[simp] theorem takeFault_eq_answer (code : FaultCode) : s.takeFault code = s.answer (.fault code) := rfl

@[simp] theorem present_flen : (s.present w ws).flen = s.flen := rfl
@[simp] theorem present_cmdI : (s.present w ws).cmdI = w := rfl
@[simp] theorem present_res16O : (s.present w ws).res16O = s.res16O := rfl
@[simp] theorem present_resfO : (s.present w ws).resfO = s.resfO := rfl
@[simp] theorem present_faultO : (s.present w ws).faultO = s.faultO := rfl
@[simp] theorem present_fcodeO : (s.present w ws).fcodeO = s.fcodeO := rfl
@[simp] theorem present_pending : (s.present w ws).pending = ws := rfl
@[simp] theorem present_responses : (s.present w ws).responses = s.responses := rfl

@[simp] theorem issue_flen : (s.issue ws).flen = s.flen := rfl
@[simp] theorem issue_cmdI : (s.issue ws).cmdI = s.cmdI := rfl
@[simp] theorem issue_res16O : (s.issue ws).res16O = s.res16O := rfl
@[simp] theorem issue_resfO : (s.issue ws).resfO = s.resfO := rfl
@[simp] theorem issue_faultO : (s.issue ws).faultO = s.faultO := rfl
@[simp] theorem issue_fcodeO : (s.issue ws).fcodeO = s.fcodeO := rfl
@[simp] theorem issue_pending : (s.issue ws).pending = s.pending ++ ws := rfl
@[simp] theorem issue_responses : (s.issue ws).responses = s.responses := rfl

@[simp] theorem withFetchWord_flen (n k : Nat) : (s.withFetchWord n k).flen = s.flen := rfl
@[simp] theorem withFetchWord_cmdI (n k : Nat) : (s.withFetchWord n k).cmdI = s.cmdI := rfl
@[simp] theorem withFetchWord_res16O (n k : Nat) : (s.withFetchWord n k).res16O = s.res16O := rfl
@[simp] theorem withFetchWord_resfO (n k : Nat) : (s.withFetchWord n k).resfO = s.resfO := rfl
@[simp] theorem withFetchWord_faultO (n k : Nat) : (s.withFetchWord n k).faultO = s.faultO := rfl
@[simp] theorem withFetchWord_fcodeO (n k : Nat) : (s.withFetchWord n k).fcodeO = s.fcodeO := rfl
@[simp] theorem withFetchWord_pending (n k : Nat) :
    (s.withFetchWord n k).pending = BitVec.ofNat 18 (k % 2 ^ n) :: s.pending := rfl
@[simp] theorem withFetchWord_responses (n k : Nat) : (s.withFetchWord n k).responses = s.responses := rfl

end Sys2Proof.Machine
end

