-- ==== Sys2Proof/Laws/Ops.lean ====
section
/-! SUPPORT. The spec lemmas of the shared operations: what the ports carry after an answer, what `resf_o` is as wide as, and
that answering a response is all that `State.Answers` says. -/

namespace Sys2Proof.Machine

open Sys2Proof

@[simp] theorem freeResf_flen (flen : Config.Flen) (w : CmdWord) : (freeResf flen w).flen = flen := by
  cases flen <;> rfl

@[simp] theorem floatOfSixteenths_flen (flen : Config.Flen) (k : Int) : (floatOfSixteenths flen k).flen = flen := by
  cases flen <;> rfl

@[simp] theorem celsiusOf_flen (flen : Config.Flen) (raw : Half) : (celsiusOf flen raw).flen = flen :=
  floatOfSixteenths_flen flen _

/-- After an answer the ports carry the response (30_encoding.md R43). -/
theorem answer_portsCarry (s : State) (r : Response) : (s.answer r).PortsCarry r := by
  cases r with
  | sixteenths v => exact ⟨rfl, rfl, rfl⟩
  | celsius f => exact ⟨rfl, rfl, rfl⟩
  | limit v => exact ⟨rfl, rfl, rfl⟩
  | fault code => cases code <;> exact ⟨rfl, rfl⟩

/-- `resf_o` stays FLEN wide, provided a `Celsius` response is. -/
theorem resf_flen (flen : Config.Flen) (w : CmdWord) (r : Response) (h : ∀ f, r = .celsius f → f.flen = flen) :
    (r.resf flen w).flen = flen := by
  cases r with
  | sixteenths v => exact freeResf_flen flen w
  | celsius f => exact h f rfl
  | limit v => exact freeResf_flen flen w
  | fault code => exact freeResf_flen flen w

/-- Everything that `State.answer` does. -/
theorem answer_answers (s : State) (r : Response) (h : ∀ f, r = .celsius f → f.flen = s.flen) :
    s.Answers r (s.answer r) :=
  ⟨rfl, answer_portsCarry s r, resf_flen s.flen s.cmdI r h, rfl, rfl, rfl⟩

/-- What the ports carry is a matter of the output ports alone. -/
theorem portsCarry_congr {s t : State} (r : Response) (h16 : t.res16O = s.res16O) (hf : t.resfO = s.resfO)
    (hb : t.faultO = s.faultO) (hc : t.fcodeO = s.fcodeO) : t.PortsCarry r ↔ s.PortsCarry r := by
  cases r with
  | sixteenths v => simp [State.PortsCarry, h16, hb, hc]
  | celsius f => simp [State.PortsCarry, hf, hb, hc]
  | limit v => simp [State.PortsCarry, h16, hb, hc]
  | fault code => cases code <;> simp [State.PortsCarry, hb, hc]

/-- A fault among the responses: the new one is, or an earlier one was. -/
@[simp] theorem answer_goneWrong (s : State) (r : Response) : (s.answer r).goneWrong = (s.goneWrong || r.isFault) := by
  simp [State.goneWrong]

end Sys2Proof.Machine
end

