-- ==== Sys2Proof/Laws/Exec.lean ====
section
/-! SUPPORT. What a command and a step can do, said once. -/

namespace Sys2Proof.Machine

open Sys2Proof

@[simp] theorem exec_dec16 (raw : Half) (s : State) :
    exec (.dec16 raw) s = .next (s.answer (.sixteenths (sixteenthsOf raw))) := rfl
@[simp] theorem exec_decc (raw : Half) (s : State) :
    exec (.decc raw) s = .next (s.answer (.celsius (celsiusOf s.flen raw))) := rfl
@[simp] theorem exec_enclim (tempc : Byte) (s : State) :
    exec (.enclim tempc) s = .next (s.answer (.limit (limitOf tempc))) := rfl
@[simp] theorem exec_setlim (tempc : Byte) (s : State) :
    exec (.setlim tempc) s = .next (s.answer (.limit (limitOf tempc))) := rfl
@[simp] theorem exec_reservedOp (x : Half) (s : State) :
    exec (.reservedOp x) s = .next (s.answer (.fault .reservedOp)) := rfl
@[simp] theorem exec_reservedField (rsv x : Byte) (s : State) :
    exec (.reservedField rsv x) s = .next (s.answer (.fault .reservedField)) := rfl

/-- The response of a command is a function of FLEN and the command (10_state.md R10). -/
def responseOf (flen : Config.Flen) : Instr → Response
  | .dec16 raw => .sixteenths (sixteenthsOf raw)
  | .decc raw => .celsius (celsiusOf flen raw)
  | .enclim tempc => .limit (limitOf tempc)
  | .setlim tempc => .limit (limitOf tempc)
  | .reservedOp _ => .fault .reservedOp
  | .reservedField _ _ => .fault .reservedField

/-- Every command is answered, and answering is all it does. -/
theorem exec_eq_answer (i : Instr) (s : State) : exec i s = .next (s.answer (responseOf s.flen i)) := by
  cases i <;> rfl

theorem responseOf_celsius_flen {flen : Config.Flen} {i : Instr} {f : Celsius} (h : responseOf flen i = .celsius f) :
    f.flen = flen := by
  cases i with
  | decc raw => cases h; exact celsiusOf_flen flen raw
  | _ => cases h

theorem step_idle {s : State} (h : s.pending = []) : step s = .next s := by
  simp [step, h]

theorem step_command {s : State} {w : CmdWord} {rest : List CmdWord} (h : s.pending = w :: rest) :
    step s = .next ((s.present w rest).answer (responseOf s.flen (decode w))) := by
  simp [step, h, exec_eq_answer]

/-- All that a step can do: nothing when no command is pending, else answer the next command. -/
theorem step_cases {s t : State} (h : step s = .next t) :
    (s.pending = [] ∧ t = s) ∨
      ∃ w rest, s.pending = w :: rest ∧ t = (s.present w rest).answer (responseOf s.flen (decode w)) := by
  cases hp : s.pending with
  | nil =>
    rw [step_idle hp] at h
    cases h
    exact .inl ⟨rfl, rfl⟩
  | cons w rest =>
    rw [step_command hp] at h
    cases h
    exact .inr ⟨w, rest, rfl, rfl⟩

end Sys2Proof.Machine
end

