-- ==== Sys2Proof/Laws/PerInstr.lean ====
section
/-! SUPPORT. Statements made for each constructor of Instr. FitsRow: the encoding of a well-formed instruction has the fixed bits
of its row of spec/opcode_table.json. -/

namespace Sys2Proof.Laws.FitsRow

open Sys2Proof

/-- The word of a well-formed instruction, under its row's mask, is its row's match; for RESERVED.FIELD its bits 15:8 are also
"not all zero", the row's condition. -/
def Statement (i : Instr) : Prop :=
  i.WellFormed → encode i &&& rowMask i = rowMatch i ∧ (∀ rsv x, i = .reservedField rsv x → rsvField (encode i) ≠ 0#8)

/-- The two operation bits of a format R word are what its mask `0x30000` keeps. -/
theorem op_masked (op : BitVec 2) (x : Half) :
    ((op ++ x : BitVec (2 + 16)) &&& 0x30000#18) = (op ++ 0#16 : BitVec (2 + 16)) := by
  ext i hi
  simp only [BitVec.getElem_and, BitVec.getElem_append]
  interval_cases i <;> simp

/-- The operation and reserved fields of a format T word are what ENCLIM's mask `0x3FF00` keeps. -/
theorem format_t_masked (op : BitVec 2) (rsv x : Byte) :
    ((op ++ (rsv ++ x : BitVec (8 + 8)) : BitVec (2 + 16)) &&& 0x3FF00#18)
      = (op ++ (rsv ++ 0#8 : BitVec (8 + 8)) : BitVec (2 + 16)) := by
  ext i hi
  simp only [BitVec.getElem_and, BitVec.getElem_append]
  interval_cases i <;> simp

theorem dec16 (raw : Half) : Statement (.dec16 raw) := fun _ =>
  ⟨(op_masked 0b00#2 raw).trans rfl, fun _ _ h => by cases h⟩

theorem decc (raw : Half) : Statement (.decc raw) := fun _ =>
  ⟨(op_masked 0b01#2 raw).trans rfl, fun _ _ h => by cases h⟩

theorem enclim (tempc : Byte) : Statement (.enclim tempc) := fun _ =>
  ⟨(format_t_masked 0b10#2 0x00#8 tempc).trans rfl, fun _ _ h => by cases h⟩

theorem setlim (tempc : Byte) : Statement (.setlim tempc) := fun _ =>
  ⟨(format_t_masked 0b10#2 0x00#8 tempc).trans rfl, fun _ _ h => by cases h⟩

theorem reservedOp (x : Half) : Statement (.reservedOp x) := fun _ =>
  ⟨(op_masked 0b11#2 x).trans rfl, fun _ _ h => by cases h⟩

theorem reservedField (rsv x : Byte) : Statement (.reservedField rsv x) := fun hwf =>
  ⟨(op_masked 0b10#2 (rsv ++ x : BitVec (8 + 8))).trans rfl, fun rsv' x' h => by
    cases h
    rw [encode, rsvField_append]
    simpa [Instr.WellFormed, Instr.wellFormed] using hwf⟩

end Sys2Proof.Laws.FitsRow
end

