-- ==== Sys2Proof/Laws/Run.lean ====
section
/-! SUPPORT. The host's `core` and its `run` in terms of this model's step. -/

namespace Sys2Proof.Machine

open Sys2Proof

@[simp] theorem core_step (s : State) : core.step s = step s := rfl

@[simp] theorem core_run_zero (s : State) : core.run 0 s = .next s := rfl

/-- A run goes on from the state that its first step gives. -/
theorem core_run_succ {s t : State} (k : Nat) (h : step s = .next t) : core.run (k + 1) s = core.run k t := by
  simp only [Host.Core.run, core_step, h]

/-- The first step of a run with a command pending answers that command. -/
theorem core_run_command {s : State} {w : CmdWord} {rest : List CmdWord} (k : Nat) (h : s.pending = w :: rest) :
    core.run (k + 1) s = core.run k ((s.present w rest).answer (responseOf s.flen (decode w))) :=
  core_run_succ k (step_command h)

end Sys2Proof.Machine
end

