-- ==== Sys2Proof/Tests/Slice0.lean ====
section
/-! SUPPORT. Small tests, each expected result taken from 95_test_vectors.md or from the encodings of 30_encoding.md, and a witness
for every statement that has hypotheses. -/

namespace Sys2Proof.Tests

open Sys2Proof Sys2Proof.Machine

/-- The block with the commands `ws` to come. -/
def withCommands (flen : Config.Flen) (ws : List CmdWord) : State :=
  { State.reset with flen := flen, resfO := floatOfSixteenths flen 0, pending := ws }

/-- The responses after a step or a run, none when it stopped. -/
def responsesOf : Host.Outcome State Fault Refusal → Option (List Response)
  | .next t => some t.responses
  | .fault _ => none
  | .refused _ => none

/-- `fault_o` and `fcode_o` after a step, none when it stopped. -/
def faultPortsOf : Host.Outcome State Fault Refusal → Option (BitVec 1 × BitVec 2)
  | .next t => some (t.faultO, t.fcodeO)
  | .fault _ => none
  | .refused _ => none

/-! ### WellFormed: the one check, and the term it refuses -/

theorem test_reservedField_zero_is_ill_formed : (Instr.reservedField 0x00#8 0x05#8).wellFormed = false := by decide
theorem test_reservedField_nonzero_is_well_formed : (Instr.reservedField 0x01#8 0x05#8).wellFormed = true := by decide

/-! ### Decoding: words written out bit by bit from 30_encoding.md R41, R42, R44 -/

/-- `op` = 00, `raw` = 0001 1110 0111 1000 (S2). -/
theorem test_decode_dec16 : decode 0b00_0001111001111000#18 = .dec16 0x1E78#16 := by decide
/-- `op` = 01, `raw` = 0000 0000 0101 0000 (S1). -/
theorem test_decode_decc : decode 0b01_0000000001010000#18 = .decc 0x0050#16 := by decide
/-- `op` = 10, `rsv` = 0, `tempc` = 1110 1100 (S3); the word of ENCLIM and of SETLIM. -/
theorem test_decode_enclim : decode 0b10_00000000_11101100#18 = .enclim 0xEC#8 := by decide
/-- `op` = 11 (P4). -/
theorem test_decode_reservedOp : decode 0b11_0000000001010000#18 = .reservedOp 0x0050#16 := by decide
/-- `op` = 10, `rsv` = 0000 0001 (P4). -/
theorem test_decode_reservedField : decode 0b10_00000001_01111111#18 = .reservedField 0x01#8 0x7F#8 := by decide
/-- SETLIM has the word of ENCLIM: `SETLIM -10` = `0x200F6` (P3). -/
theorem test_encode_setlim : encode (.setlim 0xF6#8) = 0x200F6#18 := by decide
theorem test_decodeTableWord : decodeTableWord 24 0x107F0 = some (.decc 0x07F0#16) := by decide
theorem test_decodeTableWord_too_wide : decodeTableWord 24 0x40000 = none := by decide

/-! ### The operations: 95_test_vectors.md -/

/-- V1, `0x1E78`. -/
theorem test_dec16_negative :
    responsesOf (step (withCommands .binary32 [0x01E78#18])) = some [.sixteenths 0xFE78#16] := by decide
/-- V1, `0xEFFF`: bits 15:13 set, bit 12 clear. -/
theorem test_dec16_high_bits :
    responsesOf (step (withCommands .binary32 [0x0EFFF#18])) = some [.sixteenths 0x0FFF#16] := by decide
/-- V1, `0xDE78`, binary32. -/
theorem test_decc_binary32 :
    responsesOf (step (withCommands .binary32 [0x1DE78#18])) = some [.celsius (.binary32 0xC1C40000#32)] := by decide
/-- V1, `0x0FFF`, binary64. -/
theorem test_decc_binary64 :
    responsesOf (step (withCommands .binary64 [0x10FFF#18])) = some [.celsius (.binary64 0x406FFE0000000000#64)] := by decide
/-- V2, -128. -/
theorem test_enclim_minimum :
    responsesOf (step (withCommands .binary32 [0x20080#18])) = some [.limit 0x1800#16] := by decide
/-- V2, -20 (S3). -/
theorem test_enclim_negative :
    responsesOf (step (withCommands .binary32 [0x200EC#18])) = some [.limit 0x1EC0#16] := by decide
/-- 41_encode.md R58: `SETLIM 30` → `Limit(0x01E0)`. -/
theorem test_setlim : responsesOf (exec (.setlim 0x1E#8) State.reset) = some [.limit 0x01E0#16] := by decide
/-- V4, `0x3FFFF`. -/
theorem test_reservedOp : faultPortsOf (step (withCommands .binary32 [0x3FFFF#18])) = some (1#1, 0b01#2) := by decide
/-- V4, `0x20100`. -/
theorem test_reservedField : faultPortsOf (step (withCommands .binary32 [0x20100#18])) = some (1#1, 0b10#2) := by decide
/-- A fault is one command's: P4, the last command after the two faults, at the ports. -/
theorem test_fault_then_defined :
    faultPortsOf (step { withCommands .binary32 [0x107F0#18] with faultO := 1#1, fcodeO := 0b10#2 }) = some (0#1, 0b00#2) := by
  decide

/-! ### IEEE-754 patterns read back (95_test_vectors.md V1) -/

theorem test_value_smallest : (Celsius.binary32 0xBD800000#32).value = some (mkRat (-1) 16) := by decide
theorem test_value_minus_zero : (Celsius.binary32 0x80000000#32).value = none := by decide

/-! ### The assembler (30_encoding.md R47; P1, P3) -/

theorem test_assemble_program :
    assembleProgram [.setlim (.decimal (-20)), .dec16 (.hex 0x1EC0), .decc (.hex 0x1EC0)] =
      .ok [0x200EC#18, 0x01EC0#18, 0x11EC0#18] := by rfl
theorem test_assemble_refuses : assembleLine (.enclim (.decimal 300)) = .error .tempcOutOfRange := by rfl

/-! ### The environment's data (P1, P2) -/

theorem test_raw_bytes : rawOfBytes 0xDE#8 0x78#8 = 0xDE78#16 := by decide
theorem test_limit_frame : writeFrame16 .kept .tUpper 0x1EC0#16 = some [0x02#8, 0x1E#8, 0xC0#8] := by decide
/-- S5: CONFIG holds `0x0123`; the reserved bits of `0x8F23` are masked before it is sent (10_state.md R16). -/
theorem test_config_frame : writeFrame16 .removed .config 0x8F23#16 = some [0x01#8, 0x01#8, 0x23#8] := by decide
theorem test_config_has_no_8_bit_write : writeFrame8 .config 0x23#8 = none := by decide
/-- 70_reset_and_hazards.md R79: the four reads of `load_device`, by pointer; the third, of CONFIG, clears the alert (R29). -/
theorem test_load_order : loadOrder.map SensorReg.pointer = [0x06#8, 0x07#8, 0x01#8, 0x07#8] := by decide
theorem test_load_clears_alert :
    loadOrder.foldlM (fun h reg => SensorHidden.selectAndRead h 0 reg) SensorHidden.powerOn =
      some { selected := some .deviceIdOrResolution, alertLatched := some false } := by decide
theorem test_result_bits : temperatureResult true false true = 0b101#3 ∧ configurationResult true false false = 0b001#3 := by decide

/-! ### Witnesses: for each statement with hypotheses, values that meet them all, each clause at its range's ends -/

theorem test_witness_DecodeOfEncodeIsTheCommand : (Instr.reservedField 0xFF#8 0x00#8).WellFormed := by decide

theorem test_witness_CommandWordRanges :
    (0x0FFFF#18).toNat ≤ 0x0FFFF ∧ 0x10000 ≤ (0x10000#18).toNat ∧ (0x1FFFF#18).toNat ≤ 0x1FFFF ∧
    0x20000 ≤ (0x20000#18).toNat ∧ (0x200FF#18).toNat ≤ 0x200FF ∧ 0x20100 ≤ (0x20100#18).toNat ∧
    (0x2FFFF#18).toNat ≤ 0x2FFFF ∧ 0x30000 ≤ (0x30000#18).toNat := by decide

theorem test_witness_TableRowsDoNotOverlap :
    (Instr.enclim 0xEC#8).WellFormed ∧ (Instr.setlim 0xEC#8).WellFormed ∧ encode (.enclim 0xEC#8) = encode (.setlim 0xEC#8) := by
  decide

theorem test_witness_AssemblerEncodesOrRefuses :
    (0xFFFF ≤ 0xFFFF) ∧ ((-128 : Int) ≤ -128 ∧ (-128 : Int) ≤ 127) ∧ ((-128 : Int) ≤ 127 ∧ (127 : Int) ≤ 127) ∧ (0xFF ≤ 0xFF) ∧
    (0xFFFF < 0x10000) ∧ ((-129 : Int) < -128) ∧ ((127 : Int) < 128) := by decide

theorem test_witness_StepRunsTheDecodedCommand : (withCommands .binary64 [0x30000#18]).pending = 0x30000#18 :: [] := by decide

theorem test_witness_StepWithNothingPendingKeepsTheState : State.reset.pending = [] := by decide

theorem test_witness_StepAnswersTheCodecResponse :
    (withCommands .binary64 [0x107F0#18, 0x00000#18]).pending = 0x107F0#18 :: [0x00000#18] := by decide

theorem test_witness_StepKeepsPortsAnsweringTheCommand :
    (withCommands .binary64 [0x2017F#18]).PortsAnswerCommand ∧ ∃ t, step (withCommands .binary64 [0x2017F#18]) = .next t :=
  ⟨⟨⟨by decide, by decide, by decide⟩, by decide⟩, ⟨_, rfl⟩⟩

theorem test_witness_StepKeepsResponsesWellFormed :
    ({ withCommands .binary32 [0x107F0#18] with responses := [.limit 0x07F0#16] } : State).ResponsesWellFormed ∧
    ∃ t, step { withCommands .binary32 [0x107F0#18] with responses := [.limit 0x07F0#16] } = .next t :=
  ⟨fun r hr => by
    cases List.mem_singleton.mp hr
    exact ⟨by decide, by decide⟩, ⟨_, rfl⟩⟩

theorem test_witness_DecoderIgnoresHighBits :
    (0xEFFF#16).getLsbD 12 = false ∧ (0x1000#16).getLsbD 12 = true ∧
    (0x1E78#16).extractLsb' 0 13 = (0xDE78#16).extractLsb' 0 13 := by decide

theorem test_witness_Dec16IsSignCorrectAndBijective :
    (0x0FFF#16).getLsbD 12 = false ∧ (0x1000#16).getLsbD 12 = true ∧
    ((-4096 : Int) ≤ -4096 ∧ (-4096 : Int) ≤ 4095) ∧ ((-4096 : Int) ≤ 4095 ∧ (4095 : Int) ≤ 4095) ∧
    ((0x1000#16).extractLsb' 0 13).toInt ≤ ((0x0FFF#16).extractLsb' 0 13).toInt := by decide

theorem test_witness_DeccIsExactDivisionBySixteen : sixteenthsOf 0xE000#16 = 0x0000#16 := by decide

theorem test_witness_DeccBitPattern :
    (sixteenthsOf 0x2000#16).toInt = 0 ∧
    (2 ^ 0 ≤ (sixteenthsOf 0x1FFF#16).toInt.natAbs ∧ (sixteenthsOf 0x1FFF#16).toInt.natAbs < 2 ^ (0 + 1)) ∧
    (2 ^ 12 ≤ (sixteenthsOf 0x1000#16).toInt.natAbs ∧ (sixteenthsOf 0x1000#16).toInt.natAbs < 2 ^ (12 + 1)) ∧
    (withCommands .binary32 []).flen = .binary32 ∧ (withCommands .binary64 []).flen = .binary64 := by decide

theorem test_witness_EnclimShiftsAndMasks : (0x01#8 : Byte) ≠ 0x00#8 ∧ (0xFF#8 : Byte) ≠ 0x00#8 := by decide

theorem test_witness_LimitClosedForm : limitOf 0x80#8 = 0x1800#16 := by decide

theorem test_witness_EncoderDoesNotSaturate :
    ((-128 : Int) ≤ -128 ∧ (-128 : Int) ≤ 127) ∧ ((-128 : Int) ≤ 127 ∧ (127 : Int) ≤ 127) := by decide

theorem test_witness_WideningDoesNotMatter : (16 : Nat) ≤ 16 ∧ (16 : Nat) ≤ 32 := by decide

theorem test_witness_ReservedWordsFault :
    (withCommands .binary32 [0x20100#18]).pending = 0x20100#18 :: [] ∧
    (withCommands .binary32 [0x30000#18]).pending = 0x30000#18 :: [] ∧
    (withCommands .binary64 [0x200FF#18]).pending = 0x200FF#18 :: [] := ⟨rfl, rfl, rfl⟩

/-- V4: the two ends of the reserved field range. -/
theorem test_reserved_field_range :
    responsesOf (step (withCommands .binary32 [0x20100#18])) = some [.fault .reservedField] ∧
    responsesOf (step (withCommands .binary32 [0x2FFFF#18])) = some [.fault .reservedField] := by decide
/-- V4: the two ends of the reserved operation range. -/
theorem test_reserved_op_range :
    responsesOf (step (withCommands .binary32 [0x30000#18])) = some [.fault .reservedOp] ∧
    responsesOf (step (withCommands .binary32 [0x3FFFF#18])) = some [.fault .reservedOp] := by decide
/-- V4, V1: the last word of each defined range, and the first of DECC and of ENCLIM. -/
theorem test_last_dec16_word : responsesOf (step (withCommands .binary32 [0x0FFFF#18])) = some [.sixteenths 0xFFFF#16] := by
  decide
theorem test_ends_of_decc_range :
    responsesOf (step (withCommands .binary32 [0x10000#18])) = some [.celsius (.binary32 0x00000000#32)] ∧
    responsesOf (step (withCommands .binary32 [0x1FFFF#18])) = some [.celsius (.binary32 0xBD800000#32)] :=
  ⟨by decide, by decide⟩
theorem test_ends_of_enclim_range :
    responsesOf (step (withCommands .binary32 [0x20000#18])) = some [.limit 0x0000#16] ∧
    responsesOf (step (withCommands .binary32 [0x200FF#18])) = some [.limit 0x1FF0#16] := by decide

theorem test_witness_FaultCodesOfEveryWord : (withCommands .binary32 [0x200FF#18]).pending = 0x200FF#18 :: [] := by decide

theorem test_witness_DefinedOperationsRaiseNothing :
    Instr.setlim 0x80#8 ∈ [Instr.dec16 0xFFFF#16, .decc 0xFFFF#16, .enclim 0x80#8, .setlim 0x80#8] := by decide

theorem test_witness_FaultLeavesNoTrace :
    reservedWord 0x20100#18 = true ∧ reservedWord 0x2FFFF#18 = true ∧ reservedWord 0x30000#18 = true ∧
    reservedWord 0x3FFFF#18 = true ∧ reservedWord 0x200FF#18 = false ∧ reservedWord 0x1FFFF#18 = false := by decide

theorem test_witness_RunGoesWrongOnReservedWordsOnly :
    (withCommands .binary32 [0x2007F#18, 0x30050#18]).responses = [] := by decide

theorem test_witness_ResponseDependsOnTheCommandAlone :
    (withCommands .binary32 [0x00050#18]).flen = State.reset.flen ∧
    (withCommands .binary32 [0x00050#18]).pending = 0x00050#18 :: [] ∧
    (withCommands .binary32 [0x00050#18, 0x30050#18]).pending = 0x00050#18 :: [0x30050#18] := by decide

theorem test_witness_OrderChangesNoResponse :
    (withCommands .binary32 [0x2007F#18, 0x30050#18]).responses = [] ∧
    [0x30050#18, 0x2007F#18].Perm (withCommands .binary32 [0x2007F#18, 0x30050#18]).pending :=
  ⟨by decide, List.Perm.swap _ _ _⟩

theorem test_witness_SharedBlockKeepsHostsApart : (withCommands .binary64 []).responses = [] := by decide

theorem test_witness_WriteFrames :
    writeFrame16 .kept .config 0xFFFF#16 = some [0x01#8, 0x01#8, 0xFF#8] ∧
    writeFrame16 .kept .tCrit 0xFFFF#16 = some [0x04#8, 0x1F#8, 0xFF#8] ∧
    writeFrame16 .removed .tLower 0x0000#16 = some [0x03#8, 0x00#8, 0x00#8] ∧
    writeFrame8 .deviceIdOrResolution 0x03#8 = some [0x07#8, 0x03#8] := by decide

end Sys2Proof.Tests
end

section
/-! PROOFS. The state at reset, field by field as far as 00_scope.md R7 and log entry 4 fix it. -/
namespace Sys2Proof.Machine

@[simp] theorem State.reset_flen : State.reset.flen = .binary32 := rfl

@[simp] theorem State.reset_pending : State.reset.pending = [] := rfl

@[simp] theorem State.reset_responses : State.reset.responses = [] := rfl

/-- Settles O12, from the fields of the reset state. -/
theorem resetHasDefaultWidthAndEmptyRun : Obligations.ResetHasDefaultWidthAndEmptyRun :=
  ⟨State.reset_flen, State.reset_pending, State.reset_responses⟩

end Sys2Proof.Machine
end

section
/-! PROOFS. The machine, which follows the operational text, against the codec, which follows the ranges of 30_encoding.md R44
and the closed forms of 40_decode.md R50, R51 and 41_encode.md R59. -/
namespace Sys2Proof.Machine

theorem opField_toNat (w : CmdWord) : (opField w).toNat = w.toNat / 0x10000 := by
  simp only [opField, BitVec.extractLsb'_toNat, Nat.shiftRight_eq_div_pow]
  omega

theorem rsvField_toNat (w : CmdWord) : (rsvField w).toNat = w.toNat / 0x100 % 0x100 := by
  simp only [rsvField, BitVec.extractLsb'_toNat, Nat.shiftRight_eq_div_pow, Nat.reducePow]

/-- The 13-bit field of the operand of a format R word stands at the low end of the word. -/
theorem fieldOf_rawField (w : CmdWord) : fieldOf (rawField w) = w.extractLsb' 0 13 := by
  ext i hi
  simp [fieldOf, rawField]

/-- The closed form of DEC16 (40_decode.md R50): OR with `0xF000` or AND with `0x0FFF` is sign extension of the field. -/
theorem sixteenthsOf_eq_signExtend (raw : Half) : sixteenthsOf raw = (fieldOf raw).signExtend 16 := by
  have hsign : rawSign raw = raw[12] := rfl
  have hmsb : (fieldOf raw).msb = raw[12] := by simp [fieldOf, BitVec.msb_eq_getLsbD_last]
  ext i hi
  rw [BitVec.getElem_signExtend, hmsb, sixteenthsOf, hsign]
  cases h12 : raw[12] with
  | false => interval_cases i <;> simp [fieldOf, posMask, h12]
  | true => interval_cases i <;> simp [fieldOf, sextOr, h12]

/-- DECC's dividend is the field as a signed number (40_decode.md R51, 30_encoding.md R35). -/
theorem sixteenthsOf_toInt (raw : Half) : (sixteenthsOf raw).toInt = (fieldOf raw).toInt := by
  rw [sixteenthsOf_eq_signExtend, BitVec.toInt_signExtend_of_le (by decide)]

/-- The closed form of ENCLIM (41_encode.md R59): shift, bit 12 and mask give `{0b000, tempc[7], tempc[7:0], 0b0000}`. -/
theorem limitOf_eq_closedForm (tempc : Byte) : limitOf tempc = limitClosedForm tempc := by
  have hsign : tempcSign tempc = tempc[7] := rfl
  apply BitVec.eq_of_getLsbD_eq
  intro i hi
  simp only [limitOf, limitOfWidened, imposeSign, hsign, limitClosedForm, BitVec.getLsbD_append]
  cases h7 : tempc[7] with
  | false => interval_cases i <;> simp [widenTempc, fracBits, signWeight, limitMask, BitVec.getElem_signExtend, h7]
  | true => interval_cases i <;> simp [widenTempc, fracBits, signWeight, limitMask, BitVec.getElem_signExtend, h7]

/-- The two bits of `op` have four values. -/
theorem opField_cases (w : CmdWord) :
    opField w = 0b00#2 ∨ opField w = 0b01#2 ∨ opField w = 0b10#2 ∨ opField w = 0b11#2 := by
  generalize opField w = op
  revert op
  decide

/-- In format T, `rsv` is zero exactly up to `0x200FF` (30_encoding.md R44(b)). -/
theorem rsvField_eq_zero_iff {w : CmdWord} (h : opField w = 0b10#2) : rsvField w = 0x00#8 ↔ w.toNat ≤ 0x200FF := by
  have hop : w.toNat / 0x10000 = 2 := by rw [← opField_toNat, h]; rfl
  rw [← BitVec.toNat_inj, rsvField_toNat, BitVec.toNat_ofNat]
  omega

/-- The machine's response to a word, decoded first, is the codec's, by ranges of words (30_encoding.md R42, R44). -/
theorem responseOf_decode (flen : Config.Flen) (w : CmdWord) : responseOf flen (decode w) = codecResponse flen w := by
  have hop := opField_toNat w
  obtain h | h | h | h := opField_cases w <;> rw [h, BitVec.toNat_ofNat] at hop
  · rw [decode_of_op_dec16 h, codecResponse, if_pos (by omega)]
    rw [responseOf, sixteenthsOf_eq_signExtend, fieldOf_rawField]
  · rw [decode_of_op_decc h, codecResponse, if_neg (by omega), if_pos (by omega)]
    rw [responseOf, celsiusOf, sixteenthsOf_toInt, fieldOf_rawField]
  · rw [codecResponse, if_neg (by omega), if_neg (by omega), decode_of_format_t h]
    by_cases hrsv : rsvField w = 0x00#8
    · rw [if_pos hrsv, if_pos ((rsvField_eq_zero_iff h).mp hrsv)]
      rw [responseOf, limitOf_eq_closedForm, tempcField]
    · rw [if_neg hrsv, if_neg (mt (rsvField_eq_zero_iff h).mpr hrsv), if_pos (by omega)]
      rfl
  · rw [decode_of_op_reserved h, codecResponse]
    rw [if_neg (by omega), if_neg (by omega), if_neg (by omega), if_neg (by omega)]
    rfl

/-- The invariant on the ports holds after any answer that is the codec's response to the word on `cmd_i`. -/
theorem answer_portsAnswerCommand {s : State} {r : Response} (h : r = codecResponse s.flen s.cmdI)
    (hflen : ∀ f, r = .celsius f → f.flen = s.flen) : (s.answer r).PortsAnswerCommand := by
  subst h
  exact ⟨answer_portsCarry s _, resf_flen s.flen s.cmdI _ hflen⟩

/-- Settles O14: a step leaves the state as it is or answers the word it presents with the codec's response. -/
theorem stepKeepsPortsAnsweringTheCommand : Obligations.StepKeepsPortsAnsweringTheCommand := by
  intro s t hs hstep
  obtain ⟨-, rfl⟩ | ⟨w, rest, -, rfl⟩ := step_cases hstep
  · exact hs
  · exact answer_portsAnswerCommand (s := s.present w rest) (responseOf_decode s.flen w)
      fun _ => responseOf_celsius_flen

end Sys2Proof.Machine
end

section
/-! PROOFS. The step and the reset state (10_state.md R10, R12, R22). -/
namespace Sys2Proof.Machine

/-- Settles O35: each state answers the response that FLEN and the decoded word give, and nothing else of it is read. -/
theorem responseDependsOnTheCommandAlone : Obligations.ResponseDependsOnTheCommandAlone := by
  intro s s' w rest rest' hflen hs hs'
  refine ⟨_, _, responseOf s.flen (decode w), step_command hs, step_command hs', ?_, ?_, ?_, ?_⟩
  · rfl
  · rw [hflen]; rfl
  · exact answer_portsCarry _ _
  · rw [hflen]; exact answer_portsCarry _ _

/-- Settles O7: presenting the word is the update that the statement writes out. -/
theorem stepRunsTheDecodedCommand : Obligations.StepRunsTheDecodedCommand := by
  intro s w rest h
  have hpresent : s.present w rest = { s with cmdI := w, pending := rest } := rfl
  rw [step_command h, ← hpresent, exec_eq_answer, present_flen]

/-- Settles O9: every command is an answer, whose fields the laws of `State.answer` give. -/
theorem everyCommandGivesOneResponse : Obligations.EveryCommandGivesOneResponse := fun i s =>
  ⟨s.answer (responseOf s.flen i), responseOf s.flen i, exec_eq_answer i s, answer_responses s _, answer_flen s _,
    answer_cmdI s _, answer_pending s _⟩

/-- At reset the word on `cmd_i` is `DEC16 0x0000` (log entry 2), which is answered by zero. -/
theorem codecResponse_reset : codecResponse State.reset.flen State.reset.cmdI = .sixteenths 0x0000#16 := by decide

/-- Settles O13: the ports at reset carry the answer to `DEC16 0x0000`, and no response has been collected. -/
theorem resetMeetsTheInvariants : Obligations.ResetMeetsTheInvariants := by
  refine ⟨⟨?_, rfl⟩, ?_⟩
  · rw [codecResponse_reset]
    exact ⟨rfl, rfl, rfl⟩
  · intro r hr
    rw [State.reset_responses] at hr
    cases hr

end Sys2Proof.Machine
end

section
/-! PROOFS. The data of the environment: the sensor's register pointer and register map, the host's record
(10_state.md R15, R17, R19, R22). -/
namespace Sys2Proof.Machine

/-- The pointer written last is the one that counts (10_state.md R19). -/
@[simp] theorem sendPointer_sendPointer (h : SensorHidden) (f g : Nat) (first reg : SensorReg) :
    (h.sendPointer f first).sendPointer g reg = h.sendPointer g reg := rfl

/-- A read keeps the selection, so reading again does what reading once does (70_reset_and_hazards.md R81). -/
theorem afterRead_bind_afterRead (h : SensorHidden) : h.afterRead.bind SensorHidden.afterRead = h.afterRead := by
  obtain ⟨selected, alertLatched⟩ := h
  cases selected with
  | none => rfl
  | some reg => by_cases hreg : reg = .config <;> simp [SensorHidden.afterRead, hreg]

/-- Settles O43, from what a second pointer and a second read do. -/
theorem readsGoToTheRegisterSelectedLast : Obligations.ReadsGoToTheRegisterSelectedLast := by
  refine ⟨rfl, fun h flags first reg => ?_⟩
  rw [sendPointer_sendPointer, afterRead_bind_afterRead, SensorHidden.selectAndRead]

theorem ofPointer_pointer (reg : SensorReg) : SensorReg.ofPointer reg.pointer = some reg := by
  cases reg <;> rfl

/-- A register is found only at its own pointer (10_state.md R17). -/
theorem pointer_of_ofPointer {p : Byte} {reg : SensorReg} (h : SensorReg.ofPointer p = some reg) : reg.pointer = p := by
  simpa using List.find?_some h

/-- A pointer value that is no register's selects none. -/
theorem ofPointer_eq_none {p : Byte} (hp : ∀ reg : SensorReg, reg.pointer ≠ p) : SensorReg.ofPointer p = none := by
  rw [Option.eq_none_iff_forall_ne_some]
  exact fun reg h => hp reg (pointer_of_ofPointer h)

/-- Settles O44: each row of the map by evaluation at its pointer, and no row at any other. -/
theorem registerMap : Obligations.RegisterMap := by
  refine ⟨fun p => ?_, ofPointer_pointer⟩
  split_ifs with h1 h2 h3 h4 h5 h6 h7
  case neg =>
    rw [ofPointer_eq_none, Option.map_none]
    rintro reg rfl
    cases reg with
    | config => exact h1 rfl
    | tUpper => exact h2 rfl
    | tLower => exact h3 rfl
    | tCrit => exact h4 rfl
    | ambient => exact h5 rfl
    | manufacturerId => exact h6 rfl
    | deviceIdOrResolution => exact h7 rfl
  all_goals subst p; rfl

/-- The limits have frames exactly when all three are written (log entry 17). -/
theorem limitFrames_isSome (mask : HighByteMask) (d : Device) :
    (d.limitFrames mask).isSome = (d.tUpper.isSome && d.tLower.isSome && d.tCrit.isSome) := by
  rw [Device.limitFrames]
  cases d.tUpper with
  | none => rfl
  | some u =>
    cases d.tLower with
    | none => rfl
    | some l => cases d.tCrit <;> rfl

theorem limitFrames_eq_none_of_tCrit {mask : HighByteMask} {d : Device} (h : d.tCrit = none) :
    d.limitFrames mask = none := by
  rw [← Option.isNone_iff_eq_none, ← Option.not_isSome, limitFrames_isSome, h]
  simp

/-- Settles O45: a fresh record's fields by definition, its frames by which limits are written. -/
theorem freshDeviceIsUnwritten : Obligations.FreshDeviceIsUnwritten := by
  intro stepOf address m i c r u l k mask
  refine ⟨rfl, rfl, rfl, rfl, rfl, rfl, rfl, rfl, rfl, ?_, ?_, ?_⟩
  · exact limitFrames_eq_none_of_tCrit rfl
  · exact limitFrames_eq_none_of_tCrit rfl
  · rw [← Option.isSome_iff_ne_none, limitFrames_isSome]
    rfl

end Sys2Proof.Machine
end

section
/-! PROOFS. Whole runs: the responses of a run are those of its commands, one by one, so their order is the commands' and
nothing else of them changes with it (20_memory.md R31, 70_reset_and_hazards.md R80, R83). -/
namespace Sys2Proof.Machine

/-- A run over all the commands to come ends with none left, one response more for each, in their order. -/
theorem core_run_pending {ws : List CmdWord} {s : State} (h : s.pending = ws) :
    ∃ t : State, core.run ws.length s = .next t ∧ t.pending = [] ∧ t.flen = s.flen ∧
      t.responses = s.responses ++ ws.map (codecResponse s.flen) := by
  induction ws generalizing s with
  | nil => exact ⟨s, rfl, h, rfl, by simp⟩
  | cons w rest ih =>
    obtain ⟨t, hrun, hpending, hflen, hresponses⟩ :=
      ih (s := (s.present w rest).answer (responseOf s.flen (decode w))) rfl
    refine ⟨t, (core_run_command rest.length h).trans hrun, hpending, hflen, ?_⟩
    rw [hresponses, answer_responses, present_responses, answer_flen, present_flen, responseOf_decode, List.map_cons,
      List.append_assoc, List.singleton_append]

/-- In a run that begins with no response, each command is paired with the codec's response to it. -/
theorem core_run_pairs {ws : List CmdWord} {s : State} (h : s.pending = ws) (hs : s.responses = []) :
    ∃ t : State, core.run ws.length s = .next t ∧
      ws.zip t.responses = ws.map fun w => (w, codecResponse s.flen w) := by
  obtain ⟨t, hrun, -, -, hresponses⟩ := core_run_pending h
  refine ⟨t, hrun, ?_⟩
  rw [hresponses, hs, List.nil_append, List.map_prod_left_eq_zip]

/-- Settles O36: the pairs of each run are a function of its commands, mapped over them. -/
theorem orderChangesNoResponse : Obligations.OrderChangesNoResponse := by
  intro s ws hs hperm
  obtain ⟨t, hrun, hpairs⟩ := core_run_pairs (s := s) rfl hs
  obtain ⟨u, hrun', hpairs'⟩ := core_run_pairs (s := { s with pending := ws }) rfl hs
  refine ⟨t, u, hrun, hrun', ?_⟩
  rw [hpairs, hpairs']
  exact hperm.map _

end Sys2Proof.Machine
end

section
/-! PROOFS. The data on the bus: the bytes of a word, the frames of the host's writes (20_memory.md R24, R25, R27). -/
namespace Sys2Proof.Machine

theorem rawOfBytes_highByte (b0 b1 : Byte) : (rawOfBytes b0 b1).extractLsb' 8 8 = b0 :=
  BitVec.extractLsb'_append_eq_left

theorem rawOfBytes_lowByte (b0 b1 : Byte) : (rawOfBytes b0 b1).extractLsb' 0 8 = b1 :=
  BitVec.extractLsb'_append_eq_right

/-- A word is put together from its own two bytes. -/
theorem rawOfBytes_bytes (v : Half) : rawOfBytes (v.extractLsb' 8 8) (v.extractLsb' 0 8) = v :=
  (BitVec.extractLsb'_append_extractLsb'_eq_extractLsb' rfl).trans BitVec.extractLsb'_eq_self

/-- Settles O39: bit 12 lies above the second byte, at bit 4 of the first, and bits 3:0 lie inside the second. -/
theorem rawWordsArriveBigEndian : Obligations.RawWordsArriveBigEndian := by
  intro b0 b1
  refine ⟨rawOfBytes_highByte b0 b1, rawOfBytes_lowByte b0 b1, ?_, ?_⟩
  · exact BitVec.getLsbD_append
  · exact BitVec.extractLsb'_append_eq_of_add_le (by decide)

/-- The mask of a register that has a 16-bit write (10_state.md R17). -/
theorem writeMask_of_writeWidth {reg : SensorReg} (h : reg.writeWidth = some 16) :
    reg.writeMask = some (if reg = .config then configMask else tempMask) := by
  cases reg with
  | config | tUpper | tLower | tCrit => rfl
  | ambient | manufacturerId | deviceIdOrResolution => cases h

theorem toBus_of_writeWidth {reg : SensorReg} (h : reg.writeWidth = some 16) (v : Half) :
    reg.toBus v = v &&& if reg = .config then configMask else tempMask := by
  rw [SensorReg.toBus, writeMask_of_writeWidth h]

/-- Both masks of the map lie inside the temperature mask (10_state.md R16, R17). -/
theorem toBus_and_tempMask {reg : SensorReg} (h : reg.writeWidth = some 16) (v : Half) :
    reg.toBus v &&& tempMask = reg.toBus v := by
  rw [toBus_of_writeWidth h, BitVec.and_assoc]
  split_ifs <;> rfl

/-- A mask that keeps every bit of the temperature mask changes no word inside that mask. -/
theorem and_eq_self_of_tempMask {x m : Half} (hx : x &&& tempMask = x) (hm : tempMask &&& m = tempMask) :
    x &&& m = x := by
  rw [← hx, BitVec.and_assoc, hm]

/-- Kept or removed, the mask on the high byte changes no word inside the temperature mask (20_memory.md R25, R27, U6). -/
theorem highByte_and_bits {x : Half} (hx : x &&& tempMask = x) (mask : HighByteMask) :
    (x &&& mask.bits).extractLsb' 8 8 = x.extractLsb' 8 8 := by
  have hbits : tempMask.extractLsb' 8 8 &&& mask.bits.extractLsb' 8 8 = tempMask.extractLsb' 8 8 := by
    cases mask <;> rfl
  rw [← hx, BitVec.extractLsb'_and, BitVec.extractLsb'_and, BitVec.and_assoc, hbits]

/-- The 16-bit frame is the pointer and the two bytes of the value under the register's mask. -/
theorem writeFrame16_of_writeWidth {reg : SensorReg} (h : reg.writeWidth = some 16) (mask : HighByteMask) (v : Half) :
    writeFrame16 mask reg v =
      some [reg.pointer, (reg.toBus v).extractLsb' 8 8, (reg.toBus v).extractLsb' 0 8] := by
  rw [writeFrame16, if_pos h, highByte_and_bits (toBus_and_tempMask h v)]

theorem isSome_writeFrame16 (mask : HighByteMask) (reg : SensorReg) (v : Half) :
    (writeFrame16 mask reg v).isSome = true ↔ reg.writeWidth = some 16 := by
  simp [writeFrame16]

theorem writeWidth_eq_16_iff (reg : SensorReg) :
    reg.writeWidth = some 16 ↔ reg ∈ [SensorReg.config, .tUpper, .tLower, .tCrit] := by
  cases reg <;> decide

theorem isSome_writeFrame8 (reg : SensorReg) (b : Byte) :
    (writeFrame8 reg b).isSome = true ↔ reg.writeWidth = some 8 := by
  simp [writeFrame8]

theorem writeWidth_eq_8_iff (reg : SensorReg) : reg.writeWidth = some 8 ↔ reg = .deviceIdOrResolution := by
  cases reg <;> decide

theorem writeFrame8_eq {reg : SensorReg} {b : Byte} {frame : List Byte} (h : writeFrame8 reg b = some frame) :
    frame = [0x07#8, b] := by
  have hwidth : reg.writeWidth = some 8 := by rw [← isSome_writeFrame8 reg b, h]; rfl
  obtain rfl := (writeWidth_eq_8_iff reg).mp hwidth
  exact (Option.some.inj h).symm

/-- Settles O40: the two bytes of a 16-bit frame are those of the masked value, which lies inside the temperature mask, so no
mask on the high byte changes it. -/
theorem writeFrames : Obligations.WriteFrames := by
  intro mask reg v b
  refine ⟨(isSome_writeFrame16 mask reg v).trans (writeWidth_eq_16_iff reg),
    (isSome_writeFrame8 reg b).trans (writeWidth_eq_8_iff reg), fun frame => writeFrame8_eq, fun frame hframe => ?_⟩
  have hwidth : reg.writeWidth = some 16 := by rw [← isSome_writeFrame16 mask reg v, hframe]; rfl
  have hinside := toBus_and_tempMask hwidth v
  have hbytes := rawOfBytes_bytes (reg.toBus v)
  have hmasked := hbytes.trans (toBus_of_writeWidth hwidth v)
  rw [writeFrame16_of_writeWidth hwidth] at hframe
  refine ⟨_, _, (Option.some.inj hframe).symm, fun hreg => ?_, fun hreg => ?_, ?_, fun _ => ?_⟩
  · rwa [if_pos hreg] at hmasked
  · rwa [if_neg hreg] at hmasked
  · refine hbytes.trans (and_eq_self_of_tempMask hinside ?_).symm
    cases mask <;> rfl
  · rw [← hinside]
    simp [tempMask]

/-- A mask that keeps every bit of `LIMIT_MASK` changes no encoder result (41_encode.md R57). -/
theorem limitOf_and (tempc : Byte) {m : Half} (hm : limitMask &&& m = limitMask) : limitOf tempc &&& m = limitOf tempc := by
  rw [limitOf, limitOfWidened, BitVec.and_assoc, hm]

/-- An encoder result reaches a limit register as it is. -/
theorem writeFrame16_limitOf {reg : SensorReg} (h : reg.writeWidth = some 16) (hreg : reg ≠ .config)
    (mask : HighByteMask) (tempc : Byte) :
    writeFrame16 mask reg (limitOf tempc) =
      some [reg.pointer, (limitOf tempc).extractLsb' 8 8, (limitOf tempc).extractLsb' 0 8] := by
  rw [writeFrame16_of_writeWidth h, toBus_of_writeWidth h, if_neg hreg, limitOf_and tempc rfl]

/-- The frames of a record whose three limits are written: each limit's own. -/
theorem limitFrames_of_written {mask : HighByteMask} {d : Device} {u l c : Half} {upper lower crit : List Byte}
    (hu : d.tUpper = some u) (hl : d.tLower = some l) (hc : d.tCrit = some c)
    (hupper : writeFrame16 mask .tUpper u = some upper) (hlower : writeFrame16 mask .tLower l = some lower)
    (hcrit : writeFrame16 mask .tCrit c = some crit) : d.limitFrames mask = some [upper, lower, crit] := by
  rw [Device.limitFrames, hu, hl, hc]
  simp [hupper, hlower, hcrit]

/-- Settles O41: the masks keep `LIMIT_MASK`'s bits, and an encoder result has no others. -/
theorem writePathKeepsEncoderResults : Obligations.WritePathKeepsEncoderResults := by
  intro mask u l c d
  refine ⟨limitOf_and u rfl, limitOf_and u rfl, ?_⟩
  exact limitFrames_of_written rfl rfl rfl (writeFrame16_limitOf rfl (by decide) mask u)
    (writeFrame16_limitOf rfl (by decide) mask l) (writeFrame16_limitOf rfl (by decide) mask c)

end Sys2Proof.Machine
end

section
/-! PROOFS. The reads of the sensor's registers and the alert it latches (20_memory.md R29). -/
namespace Sys2Proof.Machine

/-- What a register read does to the hidden state (20_memory.md R29, 10_state.md R19). -/
theorem selectAndRead_eq (h : SensorHidden) (flags : Nat) (reg : SensorReg) :
    h.selectAndRead flags reg =
      some { selected := some reg, alertLatched := if reg = .config then some false else h.alertLatched } := by
  by_cases hreg : reg = .config <;>
    simp [SensorHidden.selectAndRead, SensorHidden.sendPointer, SensorHidden.afterRead, hreg]

/-- Settles O42: `reset_interrupts` is the read of CONFIG. -/
theorem onlyConfigReadClearsTheAlert : Obligations.OnlyConfigReadClearsTheAlert :=
  fun h flags reg => ⟨selectAndRead_eq h flags .config, selectAndRead_eq h flags reg⟩

end Sys2Proof.Machine
end

section
/-! PROOFS. The decoder and the encoder are inverse to each other (30_encoding.md R41, R42, R44; D3), and what follows for the
rows of the opcode table and for the ranges of command words. -/
namespace Sys2Proof

/-- Settles O1, by evaluation of the decoder on ten words. -/
theorem vectorWordsDecode : Obligations.VectorWordsDecode := by
  unfold Obligations.VectorWordsDecode
  decide

/-- Each row's encoding is put together from the fields that the decoder takes apart. -/
theorem decode_encode {i : Instr} (hi : i.WellFormed) : decode (encode i) = i.expand := by
  cases i with
  | dec16 raw => rw [encode, decode_of_op_dec16 (opField_append _ _), rawField_append, Instr.expand]
  | decc raw => rw [encode, decode_of_op_decc (opField_append _ _), rawField_append, Instr.expand]
  | enclim tempc | setlim tempc =>
    rw [encode, decode_of_format_t (opField_append _ _), rsvField_append, if_pos rfl, tempcField_append, Instr.expand]
  | reservedOp x => rw [encode, decode_of_op_reserved (opField_append _ _), rawField_append, Instr.expand]
  | reservedField rsv x =>
    have hrsv : rsv ≠ 0x00#8 := by simpa [Instr.WellFormed, Instr.wellFormed] using hi
    rw [encode, decode_of_format_t (opField_append _ _), rsvField_append, if_neg hrsv, tempcField_append, Instr.expand]

/-- Settles O2, row by row: the decoder reads back the operation and the operand that the encoder put together. -/
theorem decodeOfEncodeIsTheCommand : Obligations.DecodeOfEncodeIsTheCommand := fun _ => decode_encode

/-- A command word is its operation and its 16 operand bits (30_encoding.md R41). -/
theorem opField_append_rawField (w : CmdWord) : (opField w ++ rawField w : BitVec (2 + 16)) = w :=
  (BitVec.extractLsb'_append_extractLsb'_eq_extractLsb' rfl).trans BitVec.extractLsb'_eq_self

/-- The operand bits of a format T word are `rsv` and `tempc` (30_encoding.md R41). -/
theorem rsvField_append_tempcField (w : CmdWord) : (rsvField w ++ tempcField w : BitVec (8 + 8)) = rawField w :=
  BitVec.extractLsb'_append_extractLsb'_eq_extractLsb' rfl

theorem decode_wellFormed (w : CmdWord) : (decode w).WellFormed := by
  obtain h | h | h | h := Machine.opField_cases w
  · rw [decode_of_op_dec16 h]; rfl
  · rw [decode_of_op_decc h]; rfl
  · rw [decode_of_format_t h]
    split_ifs with hrsv
    · rfl
    · simpa [Instr.WellFormed, Instr.wellFormed] using hrsv
  · rw [decode_of_op_reserved h]; rfl

/-- No bit of a word is dropped: the decoded command has the word's operation and all of its operand bits. -/
theorem encode_decode (w : CmdWord) : encode (decode w) = w := by
  have hw := opField_append_rawField w
  obtain h | h | h | h := Machine.opField_cases w
  · rwa [decode_of_op_dec16 h, encode, ← h]
  · rwa [decode_of_op_decc h, encode, ← h]
  · rw [h, ← rsvField_append_tempcField] at hw
    rw [decode_of_format_t h]
    split_ifs with hrsv
    · rwa [encode, ← hrsv]
    · rwa [encode]
  · rwa [decode_of_op_reserved h, encode, ← h]

/-- Settles O3, by cases on `op` and, in format T, on whether `rsv` is zero. -/
theorem encodeOfDecodeIsTheWord : Obligations.EncodeOfDecodeIsTheWord := fun w => ⟨decode_wellFormed w, encode_decode w⟩

/-- The encoding of every well-formed command has the fixed bits of its row of opcode_table.json. -/
theorem encode_and_rowMask {i : Instr} (hi : i.WellFormed) : encode i &&& rowMask i = rowMatch i := by
  have hrow : Laws.FitsRow.Statement i := by
    cases i with
    | dec16 raw => exact Laws.FitsRow.dec16 raw
    | decc raw => exact Laws.FitsRow.decc raw
    | enclim tempc => exact Laws.FitsRow.enclim tempc
    | setlim tempc => exact Laws.FitsRow.setlim tempc
    | reservedOp x => exact Laws.FitsRow.reservedOp x
    | reservedField rsv x => exact Laws.FitsRow.reservedField rsv x
  exact (hrow hi).1

/-- Settles O5: a word is the encoding of the command it decodes to, and decoding an encoding gives the command back. -/
theorem tableRowsDoNotOverlap : Obligations.TableRowsDoNotOverlap := by
  refine ⟨fun w => ?_, fun i j hi hj h => ?_⟩
  · have hrow := encode_and_rowMask (decode_wellFormed w)
    rwa [encode_decode] at hrow
  · rw [← decode_encode hi, ← decode_encode hj, h]

theorem rawField_eq_ofNat (w : CmdWord) : rawField w = BitVec.ofNat 16 w.toNat := rfl

theorem tempcField_eq_ofNat (w : CmdWord) : tempcField w = BitVec.ofNat 8 w.toNat := rfl

theorem rsvField_eq_ofNat (w : CmdWord) : rsvField w = BitVec.ofNat 8 (w.toNat / 256) := by
  rw [rsvField, BitVec.extractLsb', Nat.shiftRight_eq_div_pow]

/-- The operation of a word is which quarter of the 2^18 words it lies in. -/
theorem opField_eq_iff (w : CmdWord) (op : BitVec 2) : opField w = op ↔ w.toNat / 0x10000 = op.toNat := by
  rw [← BitVec.toNat_inj, Machine.opField_toNat]

/-- Settles O4: the range gives the operation, and within format T also whether `rsv` is zero. -/
theorem commandWordRanges : Obligations.CommandWordRanges := by
  intro w
  have hop := opField_eq_iff w
  rw [← rawField_eq_ofNat, ← tempcField_eq_ofNat, ← rsvField_eq_ofNat]
  refine ⟨fun hhi => ?_, fun hlo hhi => ?_, fun hlo hhi => ?_, fun hlo hhi => ?_, fun hlo => ?_⟩
  · exact decode_of_op_dec16 ((hop _).mpr (by rw [BitVec.toNat_ofNat]; omega))
  · exact decode_of_op_decc ((hop _).mpr (by rw [BitVec.toNat_ofNat]; omega))
  · have h : opField w = 0b10#2 := (hop _).mpr (by rw [BitVec.toNat_ofNat]; omega)
    rw [decode_of_format_t h, if_pos ((Machine.rsvField_eq_zero_iff h).mpr hhi)]
  · have h : opField w = 0b10#2 := (hop _).mpr (by rw [BitVec.toNat_ofNat]; omega)
    rw [decode_of_format_t h, if_neg (mt (Machine.rsvField_eq_zero_iff h).mp (by omega))]
  · exact decode_of_op_reserved ((hop _).mpr (by rw [BitVec.toNat_ofNat]; omega))

end Sys2Proof
end

section
/-! PROOFS. The assembler (30_encoding.md R47, R48): its two kinds of operand, and programs of its lines. -/
namespace Sys2Proof.Machine

theorem assembleProgram_nil : assembleProgram [] = .ok [] := rfl

/-- A line that assembles puts its word before those of the rest. -/
theorem assembleProgram_cons {line : AsmLine} {i : Instr} {rest : List AsmLine} {ws : List CmdWord}
    (hline : assembleLine line = .ok i) (hrest : assembleProgram rest = .ok ws) :
    assembleProgram (line :: rest) = .ok (encode i :: ws) := by
  rw [assembleProgram, hline, hrest]
  rfl

theorem assembleProgram_pair {a b : AsmLine} {i j : Instr} (ha : assembleLine a = .ok i) (hb : assembleLine b = .ok j) :
    assembleProgram [a, b] = .ok [encode i, encode j] :=
  assembleProgram_cons ha (assembleProgram_cons hb assembleProgram_nil)

theorem assembleRaw_hex {n : Nat} (h : n ≤ 0xFFFF) : assembleRaw (.hex n) = .ok (BitVec.ofNat 16 n) := if_pos h

theorem assembleRaw_hex_too_wide {n : Nat} (h : 0xFFFF < n) : assembleRaw (.hex n) = .error .rawTooWide :=
  if_neg (by omega)

theorem assembleTempc_hex {n : Nat} (h : n ≤ 0xFF) : assembleTempc (.hex n) = .ok (BitVec.ofNat 8 n) := if_pos h

theorem assembleTempc_decimal {n : Int} (h : -128 ≤ n ∧ n ≤ 127) : assembleTempc (.decimal n) = .ok (BitVec.ofInt 8 n) :=
  if_pos h

theorem assembleTempc_decimal_out_of_range {n : Int} (h : n < -128 ∨ 127 < n) :
    assembleTempc (.decimal n) = .error .tempcOutOfRange :=
  if_neg (by omega)

/-- A line assembles, or is refused, as its operand is (30_encoding.md R47). -/
theorem assembleLine_raw {o : AsmOperand} {res : Except AsmError Half} (h : assembleRaw o = res) :
    assembleLine (.dec16 o) = res.map .dec16 ∧ assembleLine (.decc o) = res.map .decc := by
  subst h
  exact ⟨rfl, rfl⟩

/-- ENCLIM and its alias take the same operands (30_encoding.md R48). -/
theorem assembleLine_tempc {o : AsmOperand} {res : Except AsmError Byte} (h : assembleTempc o = res) :
    assembleLine (.enclim o) = res.map .enclim ∧ assembleLine (.setlim o) = res.map .setlim := by
  subst h
  exact ⟨rfl, rfl⟩

/-- Settles O6: a line is its operand's value or error under the mnemonic. -/
theorem assemblerEncodesOrRefuses : Obligations.AssemblerEncodesOrRefuses := by
  refine ⟨fun n hn => ?_, fun n hlo hhi => ⟨BitVec.ofInt 8 n, ?_, ?_⟩, fun n hn => ?_, fun n hn => ?_, fun n hn => ?_,
    fun num den => ?_⟩
  · obtain ⟨hdec16, hdecc⟩ := assembleLine_raw (assembleRaw_hex hn)
    exact assembleProgram_pair hdec16 hdecc
  · exact BitVec.toInt_ofInt_eq_self (by decide) (by omega) (by omega)
  · obtain ⟨henclim, hsetlim⟩ := assembleLine_tempc (assembleTempc_decimal ⟨hlo, hhi⟩)
    exact assembleProgram_pair henclim hsetlim
  · obtain ⟨henclim, hsetlim⟩ := assembleLine_tempc (assembleTempc_hex hn)
    exact assembleProgram_pair henclim hsetlim
  · exact assembleLine_raw (assembleRaw_hex_too_wide hn)
  · exact assembleLine_tempc (assembleTempc_decimal_out_of_range hn)
  · exact assembleLine_tempc rfl

end Sys2Proof.Machine
end

section
/-! PROOFS. The results of DEC16: the words of format SIXT16 (30_encoding.md R36). -/
namespace Sys2Proof.Machine

/-- Bits 12:0 of the operand stand in the result, and bits 15:13 repeat bit 12 (40_decode.md R50). -/
theorem getLsbD_sixteenthsOf (raw : Half) {i : Nat} (hi : i < 16) :
    (sixteenthsOf raw).getLsbD i = raw.getLsbD (min i 12) := by
  have hmsb : (fieldOf raw).msb = raw.getLsbD 12 := by simp [fieldOf, BitVec.msb_eq_getLsbD_last]
  rw [sixteenthsOf_eq_signExtend, BitVec.getLsbD_signExtend, hmsb]
  split_ifs with hlow
  · rw [Nat.min_eq_left (by omega)]
    simp [fieldOf, hi, hlow]
  · rw [Nat.min_eq_right (by omega)]
    simp [hi]

/-- The signed value of a result is one of a 13-bit field (30_encoding.md R36). -/
theorem sixteenthsOf_toInt_range (raw : Half) : -4096 ≤ (sixteenthsOf raw).toInt ∧ (sixteenthsOf raw).toInt ≤ 4095 := by
  rw [sixteenthsOf_toInt]
  have hlo := BitVec.le_toInt (fieldOf raw)
  have hhi := BitVec.toInt_lt (x := fieldOf raw)
  omega

/-- DEC16 changes exactly the words outside the range of SIXT16. -/
theorem sixteenthsOf_eq_self_iff (v : Half) : sixteenthsOf v = v ↔ -4096 ≤ v.toInt ∧ v.toInt ≤ 4095 := by
  refine ⟨fun h => h ▸ sixteenthsOf_toInt_range v, fun ⟨hlo, hhi⟩ => ?_⟩
  have hfield : fieldOf v = v.setWidth 13 := rfl
  rw [← BitVec.toInt_inj, sixteenthsOf_toInt, hfield, BitVec.toInt_setWidth,
    ← Int.bmod_bmod_of_dvd (m := 2 ^ 16) (by decide), ← BitVec.toInt_eq_toNat_bmod]
  exact Int.bmod_eq_of_le (by omega) (by omega)

/-- DEC16 keeps exactly the words whose bits 15:13 repeat bit 12. -/
theorem sixteenthsOf_eq_self_iff_bits (v : Half) :
    sixteenthsOf v = v ↔ v.getLsbD 15 = v.getLsbD 12 ∧ v.getLsbD 14 = v.getLsbD 12 ∧ v.getLsbD 13 = v.getLsbD 12 := by
  constructor
  · intro h
    have hbit {i : Nat} (hlo : 12 ≤ i) (hhi : i < 16) : v.getLsbD i = v.getLsbD 12 := by
      rw [← h, getLsbD_sixteenthsOf v hhi, Nat.min_eq_right hlo, getLsbD_sixteenthsOf v (by decide), Nat.min_self]
    exact ⟨hbit (by decide) (by decide), hbit (by decide) (by decide), hbit (by decide) (by decide)⟩
  · rintro ⟨h15, h14, h13⟩
    apply BitVec.eq_of_getLsbD_eq
    intro i hi
    rw [getLsbD_sixteenthsOf v hi]
    obtain hlow | rfl | rfl | rfl : i ≤ 12 ∨ i = 13 ∨ i = 14 ∨ i = 15 := by omega
    · rw [Nat.min_eq_left hlow]
    · exact h13.symm
    · exact h14.symm
    · exact h15.symm

theorem sixteenthsOf_sixteenthsOf (raw : Half) : sixteenthsOf (sixteenthsOf raw) = sixteenthsOf raw :=
  (sixteenthsOf_eq_self_iff _).mpr (sixteenthsOf_toInt_range raw)

/-- The results of DEC16 are the words that it keeps. -/
theorem exists_sixteenthsOf_iff (v : Half) : (∃ raw : Half, sixteenthsOf raw = v) ↔ sixteenthsOf v = v :=
  ⟨fun ⟨raw, h⟩ => h ▸ sixteenthsOf_sixteenthsOf raw, fun h => ⟨v, h⟩⟩

/-- Bits 15:12 of a result are four copies of the field's sign (30_encoding.md R36). -/
theorem sixteenthsOf_highBits (raw : Half) :
    (sixteenthsOf raw).extractLsb' 12 4 = if raw.getLsbD 12 = true then 0b1111#4 else 0b0000#4 := by
  have hbit : ∀ i < 4, ((sixteenthsOf raw).extractLsb' 12 4).getLsbD i = raw.getLsbD 12 := by
    intro i hi
    rw [BitVec.getLsbD_extractLsb', decide_eq_true hi, Bool.true_and, getLsbD_sixteenthsOf raw (by omega),
      Nat.min_eq_right (by omega)]
  apply BitVec.eq_of_getLsbD_eq
  intro i hi
  rw [hbit i hi]
  split_ifs with hsign
  · have hones : 0b1111#4 = BitVec.allOnes 4 := rfl
    rw [hsign, hones, BitVec.getLsbD_allOnes, decide_eq_true hi]
  · rw [BitVec.getLsbD_zero, Bool.eq_false_iff.mpr hsign]

/-- Bits 11:0 of a result are those of the operand (30_encoding.md R36). -/
theorem sixteenthsOf_lowBits (raw : Half) : (sixteenthsOf raw).extractLsb' 0 12 = raw.extractLsb' 0 12 := by
  apply BitVec.eq_of_getLsbD_eq
  intro i hi
  rw [BitVec.getLsbD_extractLsb', BitVec.getLsbD_extractLsb', getLsbD_sixteenthsOf raw (by omega),
    Nat.min_eq_left (by omega)]

/-- Settles O19: the bits of a result one by one, and the results as the words that DEC16 keeps. -/
theorem sixteenthsFormat : Obligations.SixteenthsFormat :=
  ⟨fun raw => ⟨sixteenthsOf_highBits raw, sixteenthsOf_lowBits raw⟩,
    fun v => (exists_sixteenthsOf_iff v).trans (sixteenthsOf_eq_self_iff v),
    fun v => (exists_sixteenthsOf_iff v).trans (sixteenthsOf_eq_self_iff_bits v)⟩

end Sys2Proof.Machine
end

section
/-! PROOFS. The result of DECC in IEEE-754 (30_encoding.md R39, 40_decode.md R52): the three fields of the pattern of a count of
sixteenths, and the number that the pattern denotes. -/
namespace Sys2Proof.Machine

theorem two_pow_topBit_le {m : Nat} (hm : m ≠ 0) : 2 ^ topBit m ≤ m := Nat.log2_self_le hm

theorem lt_two_pow_topBit_succ (m : Nat) : m < 2 ^ (topBit m + 1) := Nat.lt_log2_self

/-- The top bit of a count of sixteenths is at most bit 12 (40_decode.md R52). -/
theorem topBit_le_of_le {m : Nat} (hm : m ≤ 4096) : topBit m ≤ 12 := by
  by_cases h0 : m = 0
  · subst h0
    decide
  · have hlog : Nat.log2 m < 13 := (Nat.log2_lt h0).mpr (by omega)
    exact Nat.le_of_lt_succ hlog

section Layout

variable {p q : Nat} (sign : Bool) (exponent : BitVec p) (fraction : BitVec q)

theorem signBit_append {n : Nat} (x : BitVec n) : (BitVec.ofBool sign ++ x).getLsbD n = sign := by
  rw [BitVec.getLsbD_append, if_neg (lt_irrefl n), Nat.sub_self]
  cases sign <;> rfl

theorem exponentBits_append (s : BitVec 1) : (s ++ (exponent ++ fraction)).extractLsb' q p = exponent :=
  (BitVec.extractLsb'_append_eq_of_add_le (by omega)).trans BitVec.extractLsb'_append_eq_left

theorem fractionBits_append (s : BitVec 1) : (s ++ (exponent ++ fraction)).extractLsb' 0 q = fraction :=
  (BitVec.extractLsb'_append_eq_of_add_le (by omega)).trans BitVec.extractLsb'_append_eq_right

end Layout

/-- What stands below the top bit fits a fraction field of `q` bits (40_decode.md R52). -/
theorem fraction_lt {m q : Nat} (hm : m ≠ 0) (hq : topBit m ≤ q) :
    (m - 2 ^ topBit m) * 2 ^ (q - topBit m) < 2 ^ q := by
  have hlo := two_pow_topBit_le hm
  have hhi := lt_two_pow_topBit_succ m
  calc (m - 2 ^ topBit m) * 2 ^ (q - topBit m)
      < 2 ^ topBit m * 2 ^ (q - topBit m) := by gcongr; omega
    _ = 2 ^ q := by rw [← pow_add, Nat.add_sub_cancel' hq]

section Fields

variable (flen : Config.Flen) {k : Int} (hk : k ≠ 0)

include hk

theorem floatOfSixteenths_sign : (floatOfSixteenths flen k).sign = decide (k < 0) := by
  cases flen with
  | binary32 => rw [floatOfSixteenths, floatBits32, if_neg hk, Celsius.sign, signBit_append]
  | binary64 => rw [floatOfSixteenths, floatBits64, if_neg hk, Celsius.sign, signBit_append]

/-- The exponent field is the bias and the top bit's index, less the four places of the division by 16. -/
theorem floatOfSixteenths_exponent (hm : k.natAbs ≤ 4096) :
    (floatOfSixteenths flen k).exponent + 4 = exponentBias flen + topBit k.natAbs := by
  have htop := topBit_le_of_le hm
  cases flen with
  | binary32 =>
    rw [floatOfSixteenths, floatBits32, if_neg hk, Celsius.exponent, exponentBits_append, BitVec.toNat_ofNat, exponentBias]
    omega
  | binary64 =>
    rw [floatOfSixteenths, floatBits64, if_neg hk, Celsius.exponent, exponentBits_append, BitVec.toNat_ofNat, exponentBias]
    omega

/-- The fraction field is what stands below the top bit, moved to the field's high end. -/
theorem floatOfSixteenths_fraction (hm : k.natAbs ≤ 4096) :
    (floatOfSixteenths flen k).fraction =
      (k.natAbs - 2 ^ topBit k.natAbs) * 2 ^ (fractionWidth flen - topBit k.natAbs) := by
  have hm0 : k.natAbs ≠ 0 := Int.natAbs_ne_zero.mpr hk
  have htop := topBit_le_of_le hm
  cases flen with
  | binary32 =>
    rw [floatOfSixteenths, floatBits32, if_neg hk, Celsius.fraction, fractionBits_append, BitVec.toNat_ofNat]
    exact Nat.mod_eq_of_lt (fraction_lt hm0 (by omega))
  | binary64 =>
    rw [floatOfSixteenths, floatBits64, if_neg hk, Celsius.fraction, fractionBits_append, BitVec.toNat_ofNat]
    exact Nat.mod_eq_of_lt (fraction_lt hm0 (by omega))

end Fields

/-- The significand, with its hidden bit, is `m` moved up by `q - e` places. -/
theorem significand_eq {m e q : Nat} (hlo : 2 ^ e ≤ m) (hq : e ≤ q) :
    2 ^ q + (m - 2 ^ e) * 2 ^ (q - e) = m * 2 ^ (q - e) := by
  have hsplit : 2 ^ q = 2 ^ e * 2 ^ (q - e) := by rw [← pow_add, Nat.add_sub_cancel' hq]
  rw [hsplit, ← Nat.add_mul, Nat.add_sub_cancel' hlo]

/-- The fields of R52 denote `m / 16`: the exponent moves the significand back and four places further. -/
theorem mkRat_fields {m e q bias exponent : Nat} (hlo : 2 ^ e ≤ m) (hq : e ≤ q) (hexp : exponent + 4 = bias + e) :
    mkRat ((2 ^ q + ((m - 2 ^ e) * 2 ^ (q - e) : Nat)) * 2 ^ exponent) (2 ^ (bias + q)) = mkRat m 16 := by
  have hnum : ((2 ^ q + ((m - 2 ^ e) * 2 ^ (q - e) : Nat)) * 2 ^ exponent : Int) =
      m * (2 ^ (q - e + exponent) : Nat) := by
    have hnat : (2 ^ q + (m - 2 ^ e) * 2 ^ (q - e)) * 2 ^ exponent = m * 2 ^ (q - e + exponent) := by
      rw [significand_eq hlo hq, Nat.pow_add, Nat.mul_assoc]
    exact_mod_cast hnat
  have hden : 2 ^ (bias + q) = 16 * 2 ^ (q - e + exponent) := by
    have hplaces : bias + q = 4 + (q - e + exponent) := by omega
    rw [hplaces, Nat.pow_add]
  rw [hnum, hden, Rat.mkRat_mul_right (by positivity)]

/-- A number of sixteenths from its sign and its magnitude. -/
theorem signed_mkRat_natAbs (k : Int) : (if k < 0 then -mkRat k.natAbs 16 else mkRat k.natAbs 16) = mkRat k 16 := by
  split_ifs with hneg
  · rw [Rat.neg_mkRat, Int.ofNat_natAbs_of_nonpos hneg.le, neg_neg]
  · rw [Int.natAbs_of_nonneg (by omega)]

/-- The number that a normal pattern denotes, from its magnitude (30_encoding.md R39). -/
theorem value_of_normal {f : Celsius} {magnitude : Rat} (hzero : f.exponent ≠ 0) (hmax : f.exponent ≠ maxExponent f.flen)
    (hmagnitude : mkRat ((2 ^ fractionWidth f.flen + f.fraction) * 2 ^ f.exponent)
      (2 ^ (exponentBias f.flen + fractionWidth f.flen)) = magnitude) :
    f.value = some (if f.sign = true then -magnitude else magnitude) := by
  rw [Celsius.value, if_neg hzero, if_neg hmax, ← hmagnitude]

/-- The pattern of R52 denotes `k / 16` exactly (40_decode.md R51, R52). -/
theorem floatOfSixteenths_value (flen : Config.Flen) {k : Int} (hm : k.natAbs ≤ 4096) :
    (floatOfSixteenths flen k).value = some (mkRat k 16) := by
  by_cases hk : k = 0
  · subst hk
    cases flen <;> rfl
  · have hexp := floatOfSixteenths_exponent flen hk hm
    have htop := topBit_le_of_le hm
    have hnormal : (floatOfSixteenths flen k).exponent ≠ 0 ∧ (floatOfSixteenths flen k).exponent ≠ maxExponent flen ∧
        topBit k.natAbs ≤ fractionWidth flen := by
      cases flen <;> simp only [exponentBias, maxExponent, fractionWidth] at hexp ⊢ <;> omega
    obtain ⟨hzero, hmax, hwidth⟩ := hnormal
    have hmagnitude := mkRat_fields (two_pow_topBit_le (Int.natAbs_ne_zero.mpr hk)) hwidth hexp
    rw [← floatOfSixteenths_fraction flen hk hm] at hmagnitude
    rw [value_of_normal (magnitude := mkRat k.natAbs 16), floatOfSixteenths_sign flen hk]
    · simp only [decide_eq_true_eq, signed_mkRat_natAbs]
    · exact hzero
    · rwa [floatOfSixteenths_flen]
    · rwa [floatOfSixteenths_flen]

end Sys2Proof.Machine
end

section
/-! PROOFS. Every response is one the block can give (30_encoding.md R36, R39, 41_encode.md R59). -/
namespace Sys2Proof.Machine

/-- An encoder result has no bit outside bits 12:4 (41_encode.md R59(a)). -/
theorem limitOf_outside (tempc : Byte) : limitOf tempc &&& ~~~0x1FF0#16 = 0#16 := by
  rw [limitOf_eq_closedForm]
  apply BitVec.eq_of_getLsbD_eq
  intro i hi
  simp only [limitClosedForm, BitVec.getLsbD_append, BitVec.getLsbD_and]
  interval_cases i <;> simp

/-- Bits 12 and 11 of an encoder result are both `tempc[7]` (41_encode.md R59). -/
theorem limitOf_bit12_eq_bit11 (tempc : Byte) : (limitOf tempc).getLsbD 12 = (limitOf tempc).getLsbD 11 := by
  rw [limitOf_eq_closedForm]
  simp only [limitClosedForm, BitVec.getLsbD_append]
  simp

/-- DECC's result denotes its number of sixteenths (40_decode.md R51). -/
theorem celsiusOf_value (flen : Config.Flen) (raw : Half) :
    (celsiusOf flen raw).value = some (mkRat (sixteenthsOf raw).toInt 16) := by
  obtain ⟨hlo, hhi⟩ := sixteenthsOf_toInt_range raw
  exact floatOfSixteenths_value flen (by omega)

theorem responseOf_wellFormed (flen : Config.Flen) (i : Instr) : (responseOf flen i).WellFormed flen := by
  cases i with
  | dec16 raw => exact sixteenthsOf_toInt_range raw
  | decc raw =>
    obtain ⟨hlo, hhi⟩ := sixteenthsOf_toInt_range raw
    exact ⟨celsiusOf_flen flen raw, _, hlo, hhi, celsiusOf_value flen raw⟩
  | enclim tempc | setlim tempc => exact ⟨limitOf_outside tempc, limitOf_bit12_eq_bit11 tempc⟩
  | reservedOp x | reservedField rsv x => trivial

/-- The responses stay well formed when the one added is. -/
theorem answer_responsesWellFormed {s : State} {r : Response} (hs : s.ResponsesWellFormed) (hr : r.WellFormed s.flen) :
    (s.answer r).ResponsesWellFormed := by
  intro r' hmem
  rw [answer_responses, List.mem_append, List.mem_singleton] at hmem
  obtain hold | rfl := hmem
  · exact hs r' hold
  · exact hr

/-- Settles O15: a step leaves the state as it is or adds the response to one command. -/
theorem stepKeepsResponsesWellFormed : Obligations.StepKeepsResponsesWellFormed := by
  intro s t hs hstep
  obtain ⟨-, rfl⟩ | ⟨w, rest, -, rfl⟩ := step_cases hstep
  · exact hs
  · exact answer_responsesWellFormed (s := s.present w rest) hs (responseOf_wellFormed s.flen (decode w))

end Sys2Proof.Machine
end

section
/-! PROOFS. What a step answers, by the range of the command word (30_encoding.md R43, R44). -/
namespace Sys2Proof.Machine

/-- Settles O10: a step answers the decoded command, and the response to it is the codec's. -/
theorem stepAnswersTheCodecResponse : Obligations.StepAnswersTheCodecResponse := by
  intro s w rest h
  refine ⟨_, step_command h, ?_⟩
  rw [responseOf_decode]
  refine answer_answers (s.present w rest) _ fun f hf => ?_
  rw [← responseOf_decode] at hf
  exact responseOf_celsius_flen hf

/-- The kind of the response to a word is that of the range the word lies in (30_encoding.md R44). -/
theorem codecResponse_cases (flen : Config.Flen) (w : CmdWord) :
    (w.toNat ≤ 0x0FFFF ∧ ∃ v, codecResponse flen w = .sixteenths v) ∨
    ((0x10000 ≤ w.toNat ∧ w.toNat ≤ 0x1FFFF) ∧ ∃ f, codecResponse flen w = .celsius f) ∨
    ((0x20000 ≤ w.toNat ∧ w.toNat ≤ 0x200FF) ∧ ∃ v, codecResponse flen w = .limit v) ∨
    ((0x20100 ≤ w.toNat ∧ w.toNat ≤ 0x2FFFF) ∧ codecResponse flen w = .fault .reservedField) ∨
    (0x30000 ≤ w.toNat ∧ codecResponse flen w = .fault .reservedOp) := by
  rw [codecResponse]
  split_ifs with hdec16 hdecc henclim hfield
  · exact .inl ⟨hdec16, _, rfl⟩
  · exact .inr (.inl ⟨by omega, _, rfl⟩)
  · exact .inr (.inr (.inl ⟨by omega, _, rfl⟩))
  · exact .inr (.inr (.inr (.inl ⟨by omega, rfl⟩)))
  · exact .inr (.inr (.inr (.inr ⟨by omega, rfl⟩)))

/-- `op = 0b11` is the last quarter of the words (30_encoding.md R44(a)). -/
theorem opField_eq_reserved_iff (w : CmdWord) : opField w = 0b11#2 ↔ 0x30000 ≤ w.toNat := by
  rw [← BitVec.toNat_inj, opField_toNat, BitVec.toNat_ofNat]
  omega

/-- The words of format T with `rsv` not zero are one range (30_encoding.md R44(b)). -/
theorem reservedField_range (w : CmdWord) :
    opField w = 0b10#2 ∧ rsvField w ≠ 0x00#8 ↔ 0x20100 ≤ w.toNat ∧ w.toNat ≤ 0x2FFFF := by
  rw [← BitVec.toNat_inj, ne_eq, ← BitVec.toNat_inj, opField_toNat, rsvField_toNat, BitVec.toNat_ofNat,
    BitVec.toNat_ofNat]
  omega

/-- Settles O28: in each range the response is of one kind, and the ranges exclude each other. -/
theorem reservedWordsFault : Obligations.ReservedWordsFault := by
  intro s w rest h
  refine ⟨_, _, step_command h, rfl, ?_⟩
  rw [responseOf_decode, ← opField, ← rsvField, reservedField_range, opField_eq_reserved_iff]
  obtain ⟨hw, v, hr⟩ | ⟨hw, f, hr⟩ | ⟨hw, v, hr⟩ | ⟨hw, hr⟩ | ⟨hw, hr⟩ := codecResponse_cases s.flen w
  all_goals
    rw [hr]
    simp only [Response.sixteenths.injEq, Response.celsius.injEq, Response.limit.injEq, Response.fault.injEq, reduceCtorEq,
      exists_eq', exists_false, true_iff, false_iff]
    omega

end Sys2Proof.Machine
end

section
/-! PROOFS. DEC16 as a map from the 13-bit field of its operand (40_decode.md R50, R53, R54). -/
namespace Sys2Proof.Machine

theorem signBit_toNat (raw : Half) : (raw.extractLsb' 12 1).toNat = (raw.getLsbD 12).toNat := by
  rw [BitVec.extractLsb'_toNat, BitVec.getLsbD, Nat.toNat_testBit, Nat.shiftRight_eq_div_pow, Nat.pow_one]

/-- The field as a signed number: bits 11:0 less the weight of the sign bit (30_encoding.md R35). -/
theorem fieldOf_toInt (raw : Half) :
    (fieldOf raw).toInt = ((raw.extractLsb' 0 12).toNat : Int) - 4096 * ((raw.extractLsb' 12 1).toNat : Int) := by
  simp only [fieldOf, BitVec.toInt_eq_toNat_cond, BitVec.extractLsb'_toNat, Nat.shiftRight_eq_div_pow, Nat.reducePow]
  split_ifs <;> omega

/-- The signed value of a result from the sign bit of the operand (40_decode.md R50, R54). -/
theorem sixteenthsOf_toInt_of_sign {raw : Half} {sign : Bool} (h : raw.getLsbD 12 = sign) :
    (sixteenthsOf raw).toInt = ((raw.extractLsb' 0 12).toNat : Int) - 4096 * (sign.toNat : Int) := by
  rw [sixteenthsOf_toInt, fieldOf_toInt, signBit_toNat, h]

/-- Settles O16: DEC16 answers `sixteenthsOf raw`, which is the sign extension of the field. -/
theorem dec16SignExtendsTheField : Obligations.Dec16SignExtendsTheField := fun raw s =>
  ⟨rfl, s.answer (.sixteenths (sixteenthsOf raw)), sixteenthsOf raw, exec_dec16 raw s, answer_answers s _ nofun, rfl,
    sixteenthsOf_eq_signExtend raw, (sixteenthsOf_toInt raw).trans (fieldOf_toInt raw)⟩

/-- Two operands have one result exactly when their fields agree (40_decode.md R53, R54). -/
theorem sixteenthsOf_eq_iff (a b : Half) : sixteenthsOf a = sixteenthsOf b ↔ fieldOf a = fieldOf b := by
  rw [← BitVec.toInt_inj, sixteenthsOf_toInt, sixteenthsOf_toInt, BitVec.toInt_inj]

/-- DEC16 keeps the field. -/
theorem fieldOf_sixteenthsOf (raw : Half) : fieldOf (sixteenthsOf raw) = fieldOf raw :=
  (sixteenthsOf_eq_iff _ _).mp (sixteenthsOf_sixteenthsOf raw)

/-- On a non-negative field the masks of 12 and of 13 bits agree (40_decode.md R53(a)). -/
theorem and_posMask_of_sign {raw : Half} (h : raw.getLsbD 12 = false) : raw &&& posMask = raw &&& 0x1FFF#16 := by
  have hmask : 0x1FFF#16 = posMask ||| signWeight := by decide
  have hweight : signWeight = BitVec.twoPow 16 12 := by decide
  rw [hmask, BitVec.and_or_distrib_left, hweight, BitVec.and_twoPow, if_neg (Bool.eq_false_iff.mp h), BitVec.or_zero]

/-- On a negative field DEC16 is the OR with `0xF000` (40_decode.md R50). -/
theorem sixteenthsOf_of_negative {raw : Half} (h : raw.getLsbD 12 = true) : sixteenthsOf raw = raw ||| sextOr := if_pos h

/-- Bits 15:12 of a result are the sign bit, extended (40_decode.md R53(c)). -/
theorem sixteenthsOf_highBits_eq_signExtend (raw : Half) :
    (sixteenthsOf raw).extractLsb' 12 4 = (raw.extractLsb' 12 1).signExtend 4 := by
  have hbit : raw.getLsbD 12 = (raw.extractLsb' 12 1).getLsbD 0 := by simp
  rw [sixteenthsOf_highBits, hbit]
  generalize raw.extractLsb' 12 1 = sign
  revert sign
  decide

/-- Settles O17: the OR of a negative field is DEC16's result, which is a function of the field and keeps it. -/
theorem decoderIgnoresHighBits : Obligations.DecoderIgnoresHighBits := by
  refine ⟨fun raw => and_posMask_of_sign, fun raw hneg => ?_, fun raw => ?_, fun a b s hfield => ?_⟩
  · rw [← sixteenthsOf_of_negative hneg]
    exact ⟨(sixteenthsOf_highBits raw).trans (if_pos hneg), fieldOf_sixteenthsOf raw⟩
  · exact ⟨sixteenthsOf_highBits_eq_signExtend raw, sixteenthsOf_lowBits raw, sixteenthsOf_eq_signExtend raw⟩
  · have hresult : sixteenthsOf a = sixteenthsOf b := (sixteenthsOf_eq_iff a b).mpr hfield
    rw [exec_dec16, exec_dec16, exec_decc, exec_decc, celsiusOf, celsiusOf, hresult]
    exact ⟨rfl, rfl⟩

/-- Every number of a 13-bit field is a result: DEC16 keeps the word that holds it (40_decode.md R54). -/
theorem exists_sixteenthsOf_toInt {k : Int} (hlo : -4096 ≤ k) (hhi : k ≤ 4095) : ∃ r : Half, (sixteenthsOf r).toInt = k := by
  have hk : (BitVec.ofInt 16 k).toInt = k := by
    rw [BitVec.toInt_ofInt]
    exact Int.bmod_eq_of_le (by omega) (by omega)
  refine ⟨BitVec.ofInt 16 k, ?_⟩
  rw [(sixteenthsOf_eq_self_iff _).mpr (by rw [hk]; exact ⟨hlo, hhi⟩), hk]

/-- Settles O18: signed, a result is bits 11:0 less 4096 for the sign bit, which is the field's own value. -/
theorem dec16IsSignCorrectAndBijective : Obligations.Dec16IsSignCorrectAndBijective := by
  refine ⟨fun r hsign => ?_, fun r hsign => ?_, sixteenthsOf_eq_iff, fun k => exists_sixteenthsOf_toInt,
    fun a b hle => ?_⟩
  · have hlow := (r.extractLsb' 0 12).isLt
    rw [sixteenthsOf_toInt_of_sign hsign, Bool.toNat_false]
    omega
  · have hlow := (r.extractLsb' 0 12).isLt
    rw [sixteenthsOf_toInt_of_sign hsign, Bool.toNat_true]
    omega
  · rwa [sixteenthsOf_toInt, sixteenthsOf_toInt]

end Sys2Proof.Machine
end

section
/-! PROOFS. DECC's result: exact, +0.0 for zero, and its pattern field by field (40_decode.md R51, R52). -/
namespace Sys2Proof.Machine

/-- Zero sixteenths are +0.0, all bits zero (40_decode.md R52). -/
theorem floatOfSixteenths_zero (flen : Config.Flen) :
    floatOfSixteenths flen 0 = .binary32 0#32 ∨ floatOfSixteenths flen 0 = .binary64 0#64 := by
  cases flen with
  | binary32 => exact .inl rfl
  | binary64 => exact .inr rfl

theorem celsiusOf_of_toInt_eq_zero (flen : Config.Flen) {raw : Half} (h : (sixteenthsOf raw).toInt = 0) :
    celsiusOf flen raw = .binary32 0#32 ∨ celsiusOf flen raw = .binary64 0#64 := by
  rw [celsiusOf, h]
  exact floatOfSixteenths_zero flen

/-- DECC's result from the field (40_decode.md R51, 30_encoding.md R35). -/
theorem celsiusOf_eq_fieldOf (flen : Config.Flen) (raw : Half) :
    celsiusOf flen raw = floatOfSixteenths flen (fieldOf raw).toInt := by
  rw [celsiusOf, sixteenthsOf_toInt]

/-- Settles O20: DECC answers `celsiusOf`, which denotes the DEC16 result over 16. -/
theorem deccIsExactDivisionBySixteen : Obligations.DeccIsExactDivisionBySixteen := by
  intro raw s
  have hanswers : s.Answers (.celsius (celsiusOf s.flen raw)) (s.answer (.celsius (celsiusOf s.flen raw))) :=
    answer_answers s _ fun _ hf => by
      cases hf
      exact celsiusOf_flen s.flen raw
  refine ⟨rfl, _, _, exec_decc raw s, hanswers, celsiusOf_flen s.flen raw, celsiusOf_value s.flen raw,
    celsiusOf_eq_fieldOf s.flen raw, fun hzero => celsiusOf_of_toInt_eq_zero s.flen ?_⟩
  rw [hzero]
  rfl

/-- The bounds of R52 on `e` fix it. -/
theorem topBit_eq_of_bounds {m e : Nat} (hlo : 2 ^ e ≤ m) (hhi : m < 2 ^ (e + 1)) : topBit m = e :=
  (Nat.log2_eq_iff (Nat.ne_of_gt (Nat.lt_of_lt_of_le (Nat.two_pow_pos e) hlo))).mpr ⟨hlo, hhi⟩

/-- The three fields of the pattern of `k / 16`, for any `e` within the bounds of R52. -/
theorem floatOfSixteenths_fields (flen : Config.Flen) {k : Int} {e : Nat} (hm : k.natAbs ≤ 4096)
    (hlo : 2 ^ e ≤ k.natAbs) (hhi : k.natAbs < 2 ^ (e + 1)) :
    e ≤ 12 ∧ (floatOfSixteenths flen k).sign = decide (k < 0) ∧
      (floatOfSixteenths flen k).exponent = exponentBias flen - 4 + e ∧
      (floatOfSixteenths flen k).fraction = (k.natAbs - 2 ^ e) * 2 ^ (fractionWidth flen - e) := by
  have hk : k ≠ 0 := Int.natAbs_ne_zero.mp (Nat.ne_of_gt (Nat.lt_of_lt_of_le (Nat.two_pow_pos e) hlo))
  obtain rfl := topBit_eq_of_bounds hlo hhi
  have hexponent := floatOfSixteenths_exponent flen hk hm
  have hbias : 4 ≤ exponentBias flen := by cases flen <;> decide
  exact ⟨topBit_le_of_le hm, floatOfSixteenths_sign flen hk, by omega, floatOfSixteenths_fraction flen hk hm⟩

/-- Settles O21: the fields are those of R52 with `e` the top bit of the DEC16 result's magnitude. -/
theorem deccBitPattern : Obligations.DeccBitPattern := by
  intro raw st
  obtain ⟨hlo, hhi⟩ := sixteenthsOf_toInt_range raw
  refine ⟨_, celsiusOf st.flen raw, exec_decc raw st, rfl, celsiusOf_flen st.flen raw, hlo, hhi,
    celsiusOf_value st.flen raw, celsiusOf_of_toInt_eq_zero st.flen, fun e helo hehi => ?_⟩
  obtain ⟨hwidth, hsign, hexponent, hfraction⟩ := floatOfSixteenths_fields st.flen (by omega) helo hehi
  refine ⟨hwidth, hsign, fun hflen => ?_, fun hflen => ?_⟩
  all_goals
    rw [hflen] at hexponent hfraction ⊢
    exact ⟨hexponent, hfraction⟩

end Sys2Proof.Machine
end

section
/-! PROOFS. The word of ENCLIM bit by bit, and what follows of its operand's widening (41_encode.md R57, R59, R62). -/
namespace Sys2Proof.Machine

/-- After the steps of ENCLIM bit 12 is the sign, bits 11:4 are the low byte of the widened operand, and no other bit is set
(41_encode.md R57). -/
theorem getLsbD_limitOfWidened (negative : Bool) (t : Half) {i : Nat} (hi : i < 16) :
    (limitOfWidened negative t).getLsbD i =
      if i = 12 then negative else decide (4 ≤ i ∧ i < 12) && t.getLsbD (i - 4) := by
  rw [limitOfWidened, imposeSign]
  cases negative with
  | false => interval_cases i <;> simp [fracBits, signWeight, limitMask]
  | true => interval_cases i <;> simp [fracBits, signWeight, limitMask]

/-- Only the low byte of the widened operand matters, so every widening that keeps the operand there gives the word of ENCLIM
(41_encode.md R62). -/
theorem limitOfWidened_eq_limitOf {tempc : Byte} {t : Half} (h : ∀ j < 8, t.getLsbD j = tempc.getLsbD j) :
    limitOfWidened (tempcSign tempc) t = limitOf tempc := by
  apply BitVec.eq_of_getLsbD_eq
  intro i hi
  rw [limitOf, getLsbD_limitOfWidened _ _ hi, getLsbD_limitOfWidened _ _ hi]
  by_cases hfield : 4 ≤ i ∧ i < 12
  · have hlow : (widenTempc tempc).getLsbD (i - 4) = tempc.getLsbD (i - 4) := by
      rw [widenTempc, BitVec.getLsbD_signExtend, if_pos (by omega), decide_eq_true (by omega), Bool.true_and]
    rw [h (i - 4) (by omega), hlow]
  · rw [decide_eq_false hfield, Bool.false_and, Bool.false_and]

/-- Zero extension gives the word that sign extension gives (41_encode.md R62(c)). -/
theorem limitOfWidened_setWidth (tempc : Byte) : limitOfWidened (tempcSign tempc) (tempc.setWidth 16) = limitOf tempc :=
  limitOfWidened_eq_limitOf fun j hj => by
    rw [BitVec.getLsbD_setWidth, decide_eq_true (by omega), Bool.true_and]

/-- The bits of an encoder result: the operand at bits 11:4, its sign again at bit 12 (41_encode.md R59). -/
theorem getLsbD_limitOf (tempc : Byte) {i : Nat} (hi : i < 16) :
    (limitOf tempc).getLsbD i =
      if i = 12 then tempc.getLsbD 7 else decide (4 ≤ i ∧ i < 12) && tempc.getLsbD (i - 4) := by
  have hwide : i - 4 < 16 := by omega
  rw [← limitOfWidened_setWidth, getLsbD_limitOfWidened _ _ hi, tempcSign, BitVec.getLsbD_setWidth, decide_eq_true hwide,
    Bool.true_and]

/-- The steps of ENCLIM in `n` bits, cut to 16, are its steps in 16 bits (41_encode.md R62(d)). -/
theorem setWidth_limitSteps {n : Nat} (hn : 16 ≤ n) (negative : Bool) (t : BitVec n) :
    ((if negative = true then (t <<< 4) ||| 0x1000#n else (t <<< 4) &&& ~~~0x1000#n) &&& 0x1FFC#n).setWidth 16 =
      limitOfWidened negative (t.setWidth 16) := by
  have hshift : (t <<< 4).setWidth 16 = t.setWidth 16 <<< fracBits := BitVec.setWidth_shiftLeft_of_le hn
  rw [BitVec.setWidth_and, BitVec.setWidth_ofNat_of_le hn, limitOfWidened, imposeSign, ← hshift]
  cases negative with
  | false =>
    rw [if_neg nofun, if_neg nofun, BitVec.setWidth_and, BitVec.setWidth_not hn, BitVec.setWidth_ofNat_of_le hn]
  | true => rw [if_pos rfl, if_pos rfl, BitVec.setWidth_or, BitVec.setWidth_ofNat_of_le hn]

/-- The shift multiplies the widened operand by 16, and the product fits (41_encode.md R62(a)). -/
theorem toInt_signExtend_shiftLeft (tempc : Byte) : (tempc.signExtend 16 <<< 4).toInt = 16 * tempc.toInt := by
  have hlo := BitVec.le_toInt tempc
  have hhi := BitVec.toInt_lt (x := tempc)
  have hsixteen : (BitVec.twoPow 16 4).toInt = 16 := by decide
  rw [BitVec.shiftLeft_eq_mul_twoPow, BitVec.toInt_mul, BitVec.toInt_signExtend_of_le (by decide), hsixteen, Int.mul_comm]
  exact Int.bmod_eq_of_le (by omega) (by omega)

/-- Settles O27: the shift is multiplication by 16, and every widening keeps the operand in the low byte. -/
theorem wideningDoesNotMatter : Obligations.WideningDoesNotMatter := by
  intro tempc
  refine ⟨toInt_signExtend_shiftLeft tempc, limitOfWidened_setWidth tempc, fun n hn => ?_⟩
  rw [setWidth_limitSteps hn]
  refine limitOfWidened_eq_limitOf fun j hj => ?_
  rw [BitVec.getLsbD_setWidth, BitVec.getLsbD_signExtend, if_pos hj, decide_eq_true (by omega), decide_eq_true (by omega),
    Bool.true_and, Bool.true_and]

end Sys2Proof.Machine
end

section
/-! PROOFS. Decoding an encoder result (41_encode.md R60). -/
namespace Sys2Proof.Machine

/-- DEC16 of an encoder result: the three copies of the sign that the mask took away come back (41_encode.md R60). -/
theorem sixteenthsOf_limitOf (c : Byte) : sixteenthsOf (limitOf c) = c.signExtend 16 <<< 4 := by
  apply BitVec.eq_of_getLsbD_eq
  intro i hi
  rw [getLsbD_sixteenthsOf _ hi, getLsbD_limitOf c (by omega), BitVec.getLsbD_shiftLeft, BitVec.getLsbD_signExtend,
    BitVec.msb_eq_getLsbD_last]
  have hshifted : i - 4 < 16 := by omega
  obtain hlow | hfield | hsign : i < 4 ∨ (4 ≤ i ∧ i < 12) ∨ 12 ≤ i := by omega
  · rw [Nat.min_eq_left (by omega), if_neg (by omega)]
    simp [hlow, Nat.not_le.mpr hlow]
  · rw [Nat.min_eq_left (by omega), if_neg (by omega), if_pos (by omega), decide_eq_true hfield]
    simp [hi, hshifted, Nat.not_lt.mpr hfield.1]
  · have hnotLow : ¬i < 4 := by omega
    rw [Nat.min_eq_right hsign, if_pos rfl, if_neg (by omega)]
    simp [hi, hshifted, hnotLow]

theorem sixteenthsOf_limitOf_toInt (c : Byte) : (sixteenthsOf (limitOf c)).toInt = 16 * c.toInt := by
  rw [sixteenthsOf_limitOf, toInt_signExtend_shiftLeft]

/-- The field of an encoder result as a signed number (41_encode.md R57). -/
theorem fieldOf_limitOf_toInt (c : Byte) : (fieldOf (limitOf c)).toInt = 16 * c.toInt := by
  rw [← sixteenthsOf_toInt, sixteenthsOf_limitOf_toInt]

/-- DECC of an encoder result is the whole degree (41_encode.md R60). -/
theorem celsiusOf_limitOf_value (c : Byte) (flen : Config.Flen) :
    (celsiusOf flen (limitOf c)).value = some (c.toInt : Rat) := by
  have hwhole : mkRat (16 * c.toInt) 16 = c.toInt :=
    (Rat.mkRat_mul_left (d := 1) (a := 16) (by decide)).trans (Rat.mkRat_one _)
  rw [celsiusOf_value, sixteenthsOf_limitOf_toInt, hwhole]

/-- The operand stands at bits 11:4 of an encoder result (41_encode.md R59(e)). -/
theorem extractLsb'_limitOf (c : Byte) : (limitOf c).extractLsb' 4 8 = c := by
  rw [limitOf_eq_closedForm, limitClosedForm, BitVec.extractLsb'_append_eq_of_add_le (by decide),
    BitVec.extractLsb'_append_eq_of_add_le (by decide), BitVec.extractLsb'_append_eq_left]

theorem limitOf_injective : Function.Injective limitOf :=
  Function.LeftInverse.injective extractLsb'_limitOf

/-- The words that ENCLIM gives: "bits 15:13, 3:0 zero and bit 12 = bit 11" (41_encode.md R60). -/
def EncoderWord (raw : Half) : Prop :=
  raw.extractLsb' 13 3 = 0#3 ∧ raw.extractLsb' 0 4 = 0#4 ∧ raw.getLsbD 12 = raw.getLsbD 11

theorem encoderWord_limitOf (c : Byte) : EncoderWord (limitOf c) := by
  refine ⟨?_, ?_, limitOf_bit12_eq_bit11 c⟩
  · rw [limitOf_eq_closedForm, limitClosedForm, BitVec.extractLsb'_append_eq_left]
  · rw [limitOf_eq_closedForm, limitClosedForm, BitVec.extractLsb'_append_eq_of_add_le (by decide),
      BitVec.extractLsb'_append_eq_of_add_le (by decide), BitVec.extractLsb'_append_eq_right]

/-- The bits of a word inside a slice of it that is zero. -/
theorem getLsbD_eq_false_of_extractLsb'_eq_zero {v : Half} {start len i : Nat} (h : v.extractLsb' start len = 0#len)
    (hlo : start ≤ i) (hhi : i < start + len) : v.getLsbD i = false := by
  have hbit : (v.extractLsb' start len).getLsbD (i - start) = false := by rw [h, BitVec.getLsbD_zero]
  rwa [BitVec.getLsbD_extractLsb', decide_eq_true (by omega), Bool.true_and, Nat.add_sub_cancel' hlo] at hbit

/-- A word of that form is the encoding of its own bits 11:4 (41_encode.md R60). -/
theorem limitOf_extractLsb' {raw : Half} (h : EncoderWord raw) : limitOf (raw.extractLsb' 4 8) = raw := by
  obtain ⟨hhigh, hlow, hsign⟩ := h
  apply BitVec.eq_of_getLsbD_eq
  intro i hi
  rw [getLsbD_limitOf _ hi]
  obtain hi4 | hfield | rfl | hi13 : i < 4 ∨ (4 ≤ i ∧ i < 12) ∨ i = 12 ∨ 13 ≤ i := by omega
  · rw [getLsbD_eq_false_of_extractLsb'_eq_zero hlow (by omega) (by omega), if_neg (by omega),
      decide_eq_false (by omega), Bool.false_and]
  · rw [if_neg (by omega), decide_eq_true hfield, Bool.true_and, BitVec.getLsbD_extractLsb', decide_eq_true (by omega),
      Bool.true_and, Nat.add_sub_cancel' hfield.1]
  · rw [if_pos rfl, hsign, BitVec.getLsbD_extractLsb', decide_eq_true (by decide), Bool.true_and]
  · rw [getLsbD_eq_false_of_extractLsb'_eq_zero hhigh hi13 (by omega), if_neg (by omega),
      decide_eq_false (by omega), Bool.false_and]

theorem exists_limitOf_iff (raw : Half) : (∃ c : Byte, limitOf c = raw) ↔ EncoderWord raw :=
  ⟨fun ⟨c, h⟩ => h ▸ encoderWord_limitOf c, fun h => ⟨_, limitOf_extractLsb' h⟩⟩

/-- The whole-degree part of a decoded word is its bits 11:4, which DEC16 keeps (40_decode.md R53). -/
theorem sixteenthsOf_wholeDegrees (raw : Half) : (sixteenthsOf raw).extractLsb' 4 8 = raw.extractLsb' 4 8 := by
  apply BitVec.eq_of_getLsbD_eq
  intro i hi
  rw [BitVec.getLsbD_extractLsb', BitVec.getLsbD_extractLsb', getLsbD_sixteenthsOf raw (by omega),
    Nat.min_eq_left (by omega)]

/-- Settles O25: decoding gives back the bits the mask took away, and encoding gives back the words of the encoder's form. -/
theorem encodeThenDecodeIsExact : Obligations.EncodeThenDecodeIsExact := by
  refine ⟨fun c flen => ⟨sixteenthsOf_limitOf c, sixteenthsOf_limitOf_toInt c, celsiusOf_limitOf_value c flen⟩,
    fun raw => ?_, exists_limitOf_iff⟩
  rw [sixteenthsOf_wholeDegrees]
  exact ⟨fun h => h ▸ encoderWord_limitOf _, limitOf_extractLsb'⟩

end Sys2Proof.Machine
end

section
/-! PROOFS. What ENCLIM and SETLIM answer (41_encode.md R57, R58, R59, R61), and the run that sets a limit and reads it back
(95_test_vectors.md P1). -/
namespace Sys2Proof.Machine

theorem answer_limit_answers (s : State) (w : Half) : s.Answers (.limit w) (s.answer (.limit w)) :=
  answer_answers s _ nofun

/-- Settles O23: the two commands have one encoding and one meaning. -/
theorem setlimIsEnclim : Obligations.SetlimIsEnclim := fun tempc s =>
  ⟨rfl, (exec_setlim tempc s).trans (exec_enclim tempc s).symm, _, exec_setlim tempc s, answer_limit_answers s _⟩

/-- Side by side, the left vector has the weight of the right one's width. -/
theorem toNat_append_eq_add {m n : Nat} (x : BitVec m) (y : BitVec n) : (x ++ y).toNat = x.toNat * 2 ^ n + y.toNat := by
  rw [BitVec.toNat_append, ← Nat.shiftLeft_add_eq_or_of_lt y.isLt, Nat.shiftLeft_eq]

/-- An encoder result as an unsigned number (41_encode.md R57). -/
theorem limitOf_toNat (tempc : Byte) :
    (limitOf tempc).toNat = 16 * tempc.toNat + 4096 * (tempc.extractLsb' 7 1).toNat := by
  rw [limitOf_eq_closedForm, limitClosedForm, toNat_append_eq_add, toNat_append_eq_add, toNat_append_eq_add,
    BitVec.toNat_ofNat, BitVec.toNat_ofNat]
  omega

/-- Settles O22: the word is `limitOf tempc`, whose steps, closed form and two values are the lemmas above. -/
theorem enclimShiftsAndMasks : Obligations.EnclimShiftsAndMasks := by
  intro tempc s
  refine ⟨rfl, fun rsv hrsv => ?_, _, limitOf tempc, exec_enclim tempc s, answer_limit_answers s _, rfl,
    limitOf_eq_closedForm tempc, limitOf_toNat tempc, fieldOf_limitOf_toInt tempc⟩
  exact decode_encode (i := .reservedField rsv tempc) (by simpa [Instr.WellFormed, Instr.wellFormed] using hrsv)

/-- Bit 15 of an encoder result is clear, so it is its own unsigned value (41_encode.md R59(c)). -/
theorem limitOf_toInt (tempc : Byte) : (limitOf tempc).toInt = (limitOf tempc).toNat :=
  BitVec.toInt_eq_toNat_of_msb (by rw [BitVec.msb_eq_getLsbD_last, getLsbD_limitOf tempc (by decide)]; rfl)

/-- Settles O24: the bits of `limitOf tempc`, and its operand read off bits 11:4. (`limitClosedForm` is the codec's word.) -/
theorem limitClosedForm' : Obligations.LimitClosedForm := by
  intro tempc s
  refine ⟨_, limitOf tempc, exec_enclim tempc s, rfl, limitOf_eq_closedForm tempc, ?_, limitOf_outside tempc,
    getLsbD_limitOf tempc (by decide), ?_, limitOf_toInt tempc, limitOf_bit12_eq_bit11 tempc,
    getLsbD_limitOf tempc (by decide), extractLsb'_limitOf tempc, fun other h => limitOf_injective h⟩
  · rw [← limitOf_and tempc (m := limitMask) rfl, BitVec.and_assoc]
    exact BitVec.and_zero
  · rw [limitOf_toInt]
    exact Int.natCast_nonneg _

/-- Settles O26: the operand that `k` is encoded as has the value `k`, and the field of its word 16 times that. -/
theorem encoderDoesNotSaturate : Obligations.EncoderDoesNotSaturate := by
  intro k s hlo hhi
  have hk : (BitVec.ofInt 8 k).toInt = k := BitVec.toInt_ofInt_eq_self (by decide) (by omega) (by omega)
  refine ⟨_, limitOf (BitVec.ofInt 8 k), exec_enclim _ s, answer_limit_answers s _, ?_, ?_, ?_⟩
  · rw [← fieldOf, fieldOf_limitOf_toInt, hk]
  · rintro rfl
    decide
  · rintro rfl
    decide

/-- The codec's response to the word of a command is the machine's response to the command. -/
theorem codecResponse_encode (flen : Config.Flen) {i : Instr} (hi : i.WellFormed) :
    codecResponse flen (encode i) = responseOf flen i.expand := by
  rw [← responseOf_decode, decode_encode hi]

/-- Settles O38: the run's three responses are those of its commands, and the two decoded ones are exact. -/
theorem setLimitAndReadBack : Obligations.SetLimitAndReadBack := by
  intro c s
  obtain ⟨t, hrun, hpending, -, hresponses⟩ := core_run_pending (s := { s with
    pending := [encode (.setlim c), encode (.dec16 (limitOf c)), encode (.decc (limitOf c))] }) rfl
  refine ⟨t, limitOf c, celsiusOf s.flen (limitOf c), hrun, ?_, celsiusOf_limitOf_value c s.flen, hpending⟩
  rw [hresponses, ← sixteenthsOf_limitOf]
  simp only [List.map_cons, List.map_nil, codecResponse_encode _ (i := .setlim c) rfl,
    codecResponse_encode _ (i := .dec16 _) rfl, codecResponse_encode _ (i := .decc _) rfl, Instr.expand, responseOf]

end Sys2Proof.Machine
end

section
/-! PROOFS. The faults (60_exceptions.md R64 to R68, R74): what `fault_o` and `fcode_o` say of a response, which command words
raise a fault, and that a fault or another host's command changes no other answer. -/
namespace Sys2Proof.Machine

theorem faultFlag_eq_one_iff (r : Response) : r.faultFlag = 1#1 ↔ r.isFault = true := by
  cases r <;> simp [Response.faultFlag, Response.isFault]

/-- `fcode_o` is the code of the fault, and tells the two faults apart (60_exceptions.md R65). -/
theorem faultBits_eq_bits_iff (r : Response) (code : FaultCode) : r.faultBits = code.bits ↔ r = .fault code := by
  cases r with
  | fault c => cases c <;> cases code <;> simp [Response.faultBits, FaultCode.bits]
  | _ => cases code <;> simp [Response.faultBits, FaultCode.bits]

/-- `fcode_o` is `0b00` exactly when `fault_o` is 0 (60_exceptions.md R65). -/
theorem faultBits_eq_zero_iff (r : Response) : r.faultBits = 0b00#2 ↔ r.faultFlag = 0#1 := by
  cases r with
  | fault c => cases c <;> simp [Response.faultBits, Response.faultFlag, FaultCode.bits]
  | _ => simp [Response.faultBits, Response.faultFlag]

/-- The fourth code has no fault (60_exceptions.md R65). -/
theorem faultBits_ne_three (r : Response) : r.faultBits ≠ 0b11#2 := by
  cases r with
  | fault c => cases c <;> simp [Response.faultBits, FaultCode.bits]
  | _ => simp [Response.faultBits]

theorem isFault_iff (r : Response) : r.isFault = true ↔ ∃ code, r = .fault code := by
  cases r <;> simp [Response.isFault]

/-- The words of each fault, by their fields (30_encoding.md R44, 60_exceptions.md R65). -/
theorem codecResponse_eq_fault_iff (flen : Config.Flen) (w : CmdWord) :
    (codecResponse flen w = .fault .reservedOp ↔ opField w = 0b11#2) ∧
    (codecResponse flen w = .fault .reservedField ↔ opField w = 0b10#2 ∧ rsvField w ≠ 0x00#8) := by
  rw [opField_eq_reserved_iff, reservedField_range]
  obtain ⟨hw, v, hr⟩ | ⟨hw, f, hr⟩ | ⟨hw, v, hr⟩ | ⟨hw, hr⟩ | ⟨hw, hr⟩ := codecResponse_cases flen w
  all_goals
    simp only [hr, Response.fault.injEq, reduceCtorEq, false_iff, true_iff]
    omega

theorem opField_getLsbD (w : CmdWord) (i : Nat) (hi : i < 2) : (opField w).getLsbD i = w.getLsbD (16 + i) := by
  simp [opField, hi]

/-- A word is reserved by its bits exactly when its fields are those of one of the two reserved rows (30_encoding.md R44). -/
theorem reservedWord_iff_fields (w : CmdWord) :
    reservedWord w = true ↔ opField w = 0b11#2 ∨ (opField w = 0b10#2 ∧ rsvField w ≠ 0x00#8) := by
  rw [reservedWord, ← opField_getLsbD w 0 (by decide), ← opField_getLsbD w 1 (by decide), ← rsvField]
  obtain h | h | h | h := opField_cases w <;> simp [h]

/-- The words that fault are the reserved words (60_exceptions.md R65). -/
theorem codecResponse_isFault_iff (flen : Config.Flen) (w : CmdWord) :
    (codecResponse flen w).isFault = true ↔ reservedWord w = true := by
  obtain ⟨hop, hfield⟩ := codecResponse_eq_fault_iff flen w
  rw [reservedWord_iff_fields, ← hop, ← hfield, isFault_iff]
  constructor
  · rintro ⟨_ | _, h⟩
    · exact .inl h
    · exact .inr h
  · rintro (h | h)
    · exact ⟨_, h⟩
    · exact ⟨_, h⟩

/-- Settles O29: the step answers the codec's response, whose kind is read off the word and whose code is on `fcode_o`. -/
theorem faultCodesOfEveryWord : Obligations.FaultCodesOfEveryWord := by
  intro s w rest h
  obtain ⟨hop, hfield⟩ := codecResponse_eq_fault_iff s.flen w
  refine ⟨_, step_command h, ?_⟩
  rw [responseOf_decode, answer_faultO, answer_fcodeO, answer_responses, present_responses, List.append_cancel_left_eq,
    List.append_cancel_left_eq, List.singleton_inj, List.singleton_inj, ← opField, ← rsvField, ← hop, ← hfield]
  exact ⟨(faultFlag_eq_one_iff _).trans (codecResponse_isFault_iff _ _), faultBits_eq_zero_iff _,
    faultBits_eq_bits_iff _ .reservedOp, faultBits_eq_bits_iff _ .reservedField,
    faultBits_eq_bits_iff _ .reservedOp, faultBits_eq_bits_iff _ .reservedField, faultBits_ne_three _⟩

/-- Settles O32: the step on `w` answers from FLEN and `w`, and the fault before it changed neither. -/
theorem faultLeavesNoTrace : Obligations.FaultLeavesNoTrace := by
  intro s bad w rest hbad
  obtain ⟨code, hcode⟩ := (isFault_iff _).mp ((codecResponse_isFault_iff s.flen bad).mpr hbad)
  refine ⟨_, _, code, responseOf s.flen (decode w), (core_run_command 1 rfl).trans (core_run_command 0 rfl),
    step_command rfl, ?_, rfl, answer_portsCarry _ _, answer_portsCarry _ _, rfl, rfl, rfl⟩
  simp [responseOf_decode, hcode]

/-- In a run of tagged commands that begins with no response, each is answered from its word, whatever its tag. -/
theorem core_run_tagged {α : Type} {tagged : List (α × CmdWord)} {s : State} (h : s.pending = tagged.map Prod.snd)
    (hs : s.responses = []) : ∃ t : State, core.run tagged.length s = .next t ∧
      t.responses = tagged.map fun c => codecResponse s.flen c.2 := by
  obtain ⟨t, hrun, -, -, hresponses⟩ := core_run_pending h
  rw [List.length_map] at hrun
  refine ⟨t, hrun, ?_⟩
  rw [hresponses, hs, List.nil_append, List.map_map]
  rfl

/-- Settles O37: both runs map one function over their commands, and choosing the host's commands goes before or after that. -/
theorem sharedBlockKeepsHostsApart : Obligations.SharedBlockKeepsHostsApart := by
  intro s tagged host hs
  obtain ⟨t, hrun, ht⟩ := core_run_tagged (s := { s with pending := tagged.map Prod.snd }) rfl hs
  obtain ⟨u, hrun', hu⟩ := core_run_tagged (s := { s with
    pending := (tagged.filter fun c => c.1 == host).map Prod.snd }) rfl hs
  refine ⟨t, u, hrun, hrun', ?_⟩
  rw [ht, hu, ← List.map_prod_left_eq_zip, List.filter_map, List.map_map]
  rfl

theorem answer_fault_answers (s : State) (code : FaultCode) : s.Answers (.fault code) (s.answer (.fault code)) :=
  answer_answers s _ nofun

/-- Settles O30: each reserved command takes its fault, which is an answer and nothing more. -/
theorem reservedCommandsAnswerTheirFault : Obligations.ReservedCommandsAnswerTheirFault :=
  ⟨fun x s => ⟨_, exec_reservedOp x s, answer_fault_answers s _, rfl, rfl⟩,
    fun rsv x s => ⟨_, exec_reservedField rsv x s, answer_fault_answers s _, rfl, rfl⟩⟩

/-- A response that is no fault clears both fault ports, and the run has gone wrong after it only if before. -/
theorem answer_of_not_isFault (s : State) {r : Response} (h : r.isFault = false) :
    (s.answer r).faultO = 0#1 ∧ (s.answer r).fcodeO = 0b00#2 ∧ (s.answer r).goneWrong = s.goneWrong := by
  cases r with
  | fault code => cases h
  | _ => exact ⟨rfl, rfl, (answer_goneWrong s _).trans (Bool.or_false _)⟩

/-- Settles O31: the response to each defined command is no fault. -/
theorem definedOperationsRaiseNothing : Obligations.DefinedOperationsRaiseNothing := by
  intro raw tempc s i hi
  refine ⟨_, exec_eq_answer i s, answer_of_not_isFault s ?_⟩
  simp only [List.mem_cons, List.not_mem_nil, or_false] at hi
  obtain rfl | rfl | rfl | rfl := hi <;> rfl

end Sys2Proof.Machine
end

section
/-! PROOFS. Runs from reset to their end (70_reset_and_hazards.md R78, R79, R83): the step with no command to come, the first
command after reset, and when a run has gone wrong. -/
namespace Sys2Proof.Machine

/-- Settles O8: such a step is the idle one. -/
theorem stepWithNothingPendingKeepsTheState : Obligations.StepWithNothingPendingKeepsTheState := fun _ => step_idle

/-- A command word put first by its number is the host's next command. -/
theorem withFetchWord_toNat_pending (s : State) (w : CmdWord) :
    (s.withFetchWord 18 w.toNat).pending = w :: s.pending := by
  rw [withFetchWord_pending, Nat.mod_eq_of_lt w.isLt, BitVec.ofNat_toNat, BitVec.setWidth_eq]

/-- Settles O11: the word is the one command to come, and the answer to it joins an empty run. -/
theorem firstCommandAfterReset : Obligations.FirstCommandAfterReset := by
  intro w
  refine ⟨_, step_command (withFetchWord_toNat_pending State.reset w), ?_⟩
  rw [withFetchWord_flen, State.reset_flen, responseOf_decode]
  exact ⟨rfl, rfl, answer_portsCarry _ _⟩

/-- A run has gone wrong exactly when it holds the response of some fault (70_reset_and_hazards.md R83). -/
theorem goneWrong_iff (s : State) : s.goneWrong = true ↔ ∃ code : FaultCode, .fault code ∈ s.responses := by
  rw [State.goneWrong, List.any_eq_true]
  constructor
  · rintro ⟨r, hmem, hr⟩
    obtain ⟨code, rfl⟩ := (isFault_iff r).mp hr
    exact ⟨code, hmem⟩
  · rintro ⟨code, hmem⟩
    exact ⟨.fault code, hmem, rfl⟩

/-- Settles O33, from the run over the commands to come. -/
theorem runAnswersEveryCommandInOrder : Obligations.RunAnswersEveryCommandInOrder := by
  intro s
  obtain ⟨t, hrun, hpending, hflen, hresponses⟩ := core_run_pending (s := s) rfl
  exact ⟨t, hrun, hpending, hflen, hresponses, goneWrong_iff t⟩

/-- The codec's responses to some words hold a fault exactly when one of the words is reserved (30_encoding.md R44). -/
theorem any_isFault_map_codecResponse (flen : Config.Flen) (ws : List CmdWord) :
    (ws.map (codecResponse flen)).any Response.isFault = true ↔ ∃ w ∈ ws, reservedWord w = true := by
  simp only [List.any_map, List.any_eq_true, Function.comp_apply, codecResponse_isFault_iff]

/-- Settles O34: the run's responses are those to its commands, and only the reserved ones fault. -/
theorem runGoesWrongOnReservedWordsOnly : Obligations.RunGoesWrongOnReservedWordsOnly := by
  intro s hs
  obtain ⟨t, hrun, -, -, hresponses⟩ := core_run_pending (s := s) rfl
  refine ⟨t, hrun, ?_⟩
  rw [State.goneWrong, hresponses, hs, List.nil_append, any_isFault_map_codecResponse]

end Sys2Proof.Machine
end
